-- ==== Sys2Proof/Word.lean ====
section
/-! DEFINITION. The two bit-vector types of the block: a register value and a byte (00_scope.md R12, R14, R15). -/

namespace Sys2Proof

/-- A register value: an unsigned 32-bit integer (00_scope.md R14). -/
abbrev Word := BitVec 32

/-- A byte: an unsigned 8-bit value (00_scope.md R15). -/
abbrev Byte := BitVec 8

end Sys2Proof
end

