-- ==== Sys2Proof/Config.lean ====
section
/-! DEFINITION. What an instance of the block fixes (00_scope.md section 4), and the values the spec leaves
unspecified: opaque constants of which no proof can know a value. -/

namespace Sys2Proof

/-- The parameters of one instance: IN_SIZE and OUT_SIZE in bytes, 1 to 2^32 - 1 (00_scope.md R9, R10).
They are 32-bit words, so the upper bound holds by type; `Config.wf` is the lower bound. -/
structure Config where
  inSize : Word
  outSize : Word
  deriving DecidableEq, Repr

/-- The reference configuration of the spec's test vectors, IN_SIZE = OUT_SIZE = 256 (00_scope.md R13). It is
the instance `State.reset` takes. DESIGN CHOICE (log entry 4), unsafe for a claim that rests on 256. -/
def Config.reference : Config := { inSize := 256#32, outSize := 256#32 }

/-- The value of draw `n` where a host reads DATA, CRC_ACC, CRC_RESULT or OUT_LEN while BUSY = 1: any value
(70_reset_and_hazards.md R286). A free value (log entry 7), safe. -/
opaque Config.freeWord : Nat → BitVec 32

/-- The value of draw `n` where a host reads an OUT byte while BUSY = 1: any value (R286). A free value
(log entry 7), safe. -/
opaque Config.freeByte : Nat → BitVec 8

/-- The byte of IN at an offset, after the event of draw `n` left it unspecified and before it is written
(70_reset_and_hazards.md R280, R291). A free value (log entry 5), safe. -/
opaque Config.freeIn : Nat → Nat → BitVec 8

/-- The byte of OUT at an offset, after the event of draw `n` left it unspecified and before it is written
(70_reset_and_hazards.md R280, R283, R291). A free value (log entries 5 and 6), safe. -/
opaque Config.freeOut : Nat → Nat → BitVec 8

/-- The value a host holds where its read, counted `n`, answered no data, or where it has read nothing: any value
(20_memory.md R85). A free value (log entry 17), safe. -/
opaque Config.freeHostWord : Nat → BitVec 32

/-- Where the REG space sits in the host's address map; read by no rule (20_memory.md R92; log entry 11). -/
opaque Config.regBase : Nat

/-- Where the IN space sits in the host's address map; read by no rule (20_memory.md R92; log entry 11). -/
opaque Config.inBase : Nat

/-- Where the OUT space sits in the host's address map; read by no rule (20_memory.md R92; log entry 11). -/
opaque Config.outBase : Nat

/-- The platform interrupt that `irq` drives; read by no rule (60_exceptions.md R261; log entry 11). -/
opaque Config.irqLine : Nat

end Sys2Proof
end

