-- ==== Sys2Proof/Syntax.lean ====
section
/-! DEFINITION. The commands of the block, one constructor per row of spec/opcode_table.json. -/

namespace Sys2Proof

/-- The nine commands (30_encoding.md R113). A command has no operand fields: every operand comes from a register
the host wrote before the issue (R112). -/
inductive Instr where
  /-- CRC_INIT (41_crc.md R146). -/
  | crcInit
  /-- CRC_BYTE (41_crc.md R147). -/
  | crcByte
  /-- CRC_UPDATE (41_crc.md R148). -/
  | crcUpdate
  /-- CRC_COMPUTE (41_crc.md R149). -/
  | crcCompute
  /-- PACK32 (42_pack.md R170). -/
  | pack32
  /-- UNPACK32 (42_pack.md R171). -/
  | unpack32
  /-- FRAME_CHUNK (43_framer.md R195). -/
  | frameChunk
  /-- ENCODE (44_container.md R215). -/
  | encode
  /-- DECODE (44_container.md R227). -/
  | decode
  deriving DecidableEq, Repr

end Sys2Proof
end

