-- ==== Sys2Proof/WellFormed.lean ====
section
/-! DEFINITION. What makes a command, a command word and a configuration well formed. -/

namespace Sys2Proof

/-- A command has no operand, immediate or form that could be ill formed (30_encoding.md R112, R118). -/
def Instr.wf : Instr → Bool
  | .crcInit => true
  | .crcByte => true
  | .crcUpdate => true
  | .crcCompute => true
  | .pack32 => true
  | .unpack32 => true
  | .frameChunk => true
  | .encode => true
  | .decode => true

/-- The reserved field of a command word, bits 31:8, is zero (30_encoding.md R110). -/
def reservedBitsClear (w : Word) : Bool := w.extractLsb' 8 24 == 0#24

/-- An instance has at least one byte in each buffer (00_scope.md R9, R10). -/
def Config.wf (c : Config) : Bool := c.inSize != 0#32 && c.outSize != 0#32

end Sys2Proof
end

