-- ==== Sys2Proof/Decode.lean ====
section
/-! DEFINITION. The command decoder and the encoder (30_encoding.md R110 to R113). -/

namespace Sys2Proof

/-- Why a 32-bit word is no command. Both reasons end as ERR_ILLEGAL (30_encoding.md R116). -/
inductive DecodeReject where
  /-- Bits 31:8 are not all zero (R110). -/
  | reservedBits
  /-- Bits 7:0 hold a reserved opcode (R113). -/
  | reservedOpcode (opc : Byte)
  deriving DecidableEq, Repr

/-- The opcode map (30_encoding.md R113). -/
def opcodeMap : List (Byte × Instr) :=
  [ (0x01#8, .crcInit),
    (0x02#8, .crcByte),
    (0x03#8, .crcUpdate),
    (0x04#8, .crcCompute),
    (0x10#8, .pack32),
    (0x11#8, .unpack32),
    (0x20#8, .frameChunk),
    (0x30#8, .encode),
    (0x31#8, .decode) ]

/-- The command an opcode byte selects in a map of opcodes, if any. -/
def lookupOpcode (opc : Byte) : List (Byte × Instr) → Option Instr
  | [] => none
  | (o, i) :: rows => if o = opc then some i else lookupOpcode opc rows

/-- Decoding of a command word, total on every 32-bit word (30_encoding.md R111). -/
def decode (w : Word) : Except DecodeReject Instr :=
  if reservedBitsClear w then
    match lookupOpcode (w.extractLsb' 0 8) opcodeMap with
    | some i => .ok i
    | none => .error (.reservedOpcode (w.extractLsb' 0 8))
  else .error .reservedBits

/-- The opcode of a command, field OPC, bits 7:0 (30_encoding.md R113). -/
def Instr.opcode : Instr → Byte
  | .crcInit => 0x01#8
  | .crcByte => 0x02#8
  | .crcUpdate => 0x03#8
  | .crcCompute => 0x04#8
  | .pack32 => 0x10#8
  | .unpack32 => 0x11#8
  | .frameChunk => 0x20#8
  | .encode => 0x30#8
  | .decode => 0x31#8

/-- The word of a command in format C: OPC in bits 7:0 and RSV, bits 31:8, zero (30_encoding.md R110). -/
def encode (i : Instr) : Word := 0#24 ++ i.opcode

/-- The 32-bit command word numbered as spec/opcode_table.json numbers it. The block has one word length, so bits
at and above `nbits` are zero, and a number that needs more than 32 bits is no command word (30_encoding.md R118). -/
def tableWord (nbits w : Nat) : Option Word :=
  let v := w % 2 ^ nbits
  if v < 2 ^ 32 then some (BitVec.ofNat 32 v) else none

/-- The command this decoder reads from a row's word. -/
def decodeTableWord (nbits w : Nat) : Option Instr :=
  match tableWord nbits w with
  | none => none
  | some v =>
    match decode v with
    | .ok i => some i
    | .error _ => none

end Sys2Proof
end

