-- ==== Sys2Proof/Machine/State.lean ====
section
/-! DEFINITION. The state of one PNGC as plain data (10_state.md R30), the host port's transactions
(20_memory.md R80), the reasons a step could stop, and the state after hardware reset (70_reset_and_hazards.md R280). -/

namespace Sys2Proof.Machine

/-- The contents of a buffer: the bytes that have been written, with their offsets, in rising order of offset. An
offset that is not listed has no stored byte; what it reads as is `State.inByte` and `State.outByte` (log entry 8). -/
abbrev Memory := List Host.Cell

/-- The three address spaces of the host port (20_memory.md R80, R81). -/
inductive Space where
  | reg
  | inBuf
  | outBuf
  deriving DecidableEq, Repr

/-- Width, direction and written value of a host transaction in one (20_memory.md R80). -/
inductive Transfer where
  | read8
  | read32
  | write8 (b : Byte)
  | write32 (w : Word)
  deriving DecidableEq, Repr

/-- A host transaction (20_memory.md R80). -/
structure Access where
  space : Space
  offset : Nat
  transfer : Transfer
  deriving DecidableEq, Repr

/-- What the host port answers: a read's value, the end of a write, or a bus error (20_memory.md R80, R85). -/
inductive Answer where
  | data8 (b : Byte)
  | data32 (w : Word)
  | written
  | busError
  deriving DecidableEq, Repr

/-- What can happen next: a host transaction, the engine's completion step, a hardware reset
(00_scope.md R22). -/
inductive Event where
  | host (x : Access)
  | completion
  | hardReset
  deriving DecidableEq, Repr

/-- The errors a command can end in (60_exceptions.md R252). -/
inductive CmdError where
  /-- ERR_ILLEGAL: the word is not in the opcode map (R254). -/
  | illegal
  /-- ERR_SRC_RANGE: the input range is not inside IN (R255). -/
  | srcRange
  /-- ERR_DST_RANGE: the output range is not inside OUT (R256). -/
  | dstRange
  deriving DecidableEq, Repr

/-- The sixteen registers of the REG space (30_encoding.md R119). -/
inductive Reg where
  | id
  | ctrl
  | status
  | cmd
  | srcAddr
  | srcLen
  | dstAddr
  | outLen
  | data
  | typeTag
  | crcAcc
  | crcResult
  | inSize
  | outSize
  | reserved38
  | reserved3C
  deriving DecidableEq, Repr

/-- The state. The first seventeen fields are the spec's record (10_state.md R30), `cfg` is the instance's
configuration, and the rest are the model's own: the free values drawn so far and the host's side of the port. -/
structure State where
  /-- CTRL.IE, the completion interrupt enable (10_state.md R32). -/
  ctrlIE : Bool
  /-- STATUS.BUSY (10_state.md R36). -/
  busy : Bool
  /-- STATUS.DONE (10_state.md R37). -/
  done : Bool
  /-- STATUS.PASS (10_state.md R38). -/
  pass : Bool
  /-- STATUS.OVR (10_state.md R39). -/
  ovr : Bool
  /-- STATUS.ERR (10_state.md R40). -/
  err : BitVec 4
  /-- CMD, the last word accepted by an issue (10_state.md R41). -/
  cmd : Word
  /-- SRC_ADDR (10_state.md R45). -/
  srcAddr : Word
  /-- SRC_LEN (10_state.md R46). -/
  srcLen : Word
  /-- DST_ADDR (10_state.md R47). -/
  dstAddr : Word
  /-- OUT_LEN (10_state.md R42). -/
  outLen : Word
  /-- DATA (10_state.md R48). -/
  data : Word
  /-- TYPE (10_state.md R49). -/
  typeTag : Word
  /-- CRC_ACC (10_state.md R50). -/
  crcAcc : Word
  /-- PEND, the pending command word (10_state.md R56). -/
  pend : Option Word
  /-- IN (10_state.md R54). -/
  inBuf : Memory
  /-- OUT (10_state.md R55). -/
  outBuf : Memory
  /-- IN_SIZE and OUT_SIZE (00_scope.md R9, R10); no step changes it. -/
  cfg : Config
  /-- MODEL'S OWN: how many free values have been drawn; the index of the next (log entry 12). -/
  draws : Nat
  /-- MODEL'S OWN: the draw IN's unspecified contents came from (log entry 5). -/
  inDraw : Nat
  /-- MODEL'S OWN: the draw OUT's unspecified contents came from (log entry 5). -/
  outDraw : Nat
  /-- MODEL'S OWN: the first offset and the draw of each region of OUT a soft reset left unspecified, newest first
  (log entry 6). -/
  outAborts : List (Nat × Nat)
  /-- MODEL'S OWN: what happens next, soonest first (log entry 1). -/
  schedule : List Event
  /-- MODEL'S OWN: what the host port answered, newest first (log entry 9). -/
  answers : List Answer
  /-- MODEL'S OWN: the illegal accesses, newest first; the host-side fault record of 20_memory.md R85, never cleared
  (log entry 9). -/
  busErrors : List Access
  deriving DecidableEq, Repr

/-- Why a step could stop. The block itself never traps (60_exceptions.md R251); these are the two primitives of
00_scope.md R18 used outside the range they are defined on. Every command checks its range first, so no step
reaches one (log entry 13). -/
inductive Fault where
  /-- MemRead(IN, a, n) with a + n > IN_SIZE: raised by `memRead`'s users. Safe: the machine stops. -/
  | readOutsideIn
  /-- MemWrite(OUT, a, s) with a + len(s) > OUT_SIZE: raised by `memWrite`'s users. Safe: the machine stops. -/
  | writeOutsideOut
  deriving DecidableEq, Repr

/-- Why a step could have no meaning. -/
inductive Refusal where
  /-- An instruction without a meaning in this model: raised by an arm of `exec`, of which none is left. Safe. -/
  | notModelled (mnemonic : String)
  deriving DecidableEq, Repr

/-- The outcomes of a step of this machine. -/
abbrev Result := Host.Outcome State Fault Refusal

/-- The state right after a hardware reset (70_reset_and_hazards.md R280), of the reference configuration
(log entry 4), with nothing scheduled (R281: it runs nothing on its own; log entry 10). -/
def State.reset : State where
  ctrlIE := false
  busy := false
  done := false
  pass := false
  ovr := false
  err := 0#4
  cmd := 0#32
  srcAddr := 0#32
  srcLen := 0#32
  dstAddr := 0#32
  outLen := 0#32
  data := 0#32
  typeTag := 0#32
  crcAcc := 0xFFFFFFFF#32
  pend := none
  inBuf := []
  outBuf := []
  cfg := Config.reference
  draws := 1
  inDraw := 0
  outDraw := 0
  outAborts := []
  schedule := []
  answers := []
  busErrors := []

end Sys2Proof.Machine
end

