-- ==== Sys2Proof/Machine/Ops.lean ====
section
/-! DEFINITION. The named operations over buffers and registers that the commands, the host port and the resets
share: reading and writing bytes, drawing free values, issuing, completing, ending in an error, and the resets. -/

namespace Sys2Proof.Machine

/-! ### A buffer's written bytes -/

/-- The canonical form of a buffer's contents: offsets strictly rising, so each is listed once (log entry 8). -/
abbrev Memory.wf (m : Memory) : Prop := m.Pairwise fun c d => c.1 < d.1

/-- Every listed offset lies in a buffer of `size` bytes (10_state.md R54, R55). -/
abbrev Memory.within (size : Nat) (m : Memory) : Prop := ∀ c ∈ m, c.1 < size

/-- The byte stored at an offset, if one has been written. -/
def Memory.read : Memory → Nat → Option Byte
  | [], _ => none
  | (b, v) :: rest, a => if a = b then some v else Memory.read rest a

/-- Store one byte, keeping the canonical form. -/
def Memory.write : Memory → Nat → Byte → Memory
  | [], a, v => [(a, v)]
  | (b, w) :: rest, a, v =>
    if a < b then (a, v) :: (b, w) :: rest
    else if a = b then (a, v) :: rest
    else (b, w) :: Memory.write rest a v

/-- Store a byte sequence at consecutive offsets, first byte first (00_scope.md R18, MemWrite). -/
def Memory.writeBytes : Memory → Nat → List Byte → Memory
  | m, _, [] => m
  | m, a, v :: rest => Memory.writeBytes (m.write a v) (a + 1) rest

/-- The contents below an offset; nothing at or above it is stored any more. -/
def Memory.below (m : Memory) (bound : Nat) : Memory := m.filter fun c => decide (c.1 < bound)

/-! ### Reading the buffers -/

/-- The draw that the unwritten byte of OUT at an offset comes from: the newest aborting soft reset that reached
the offset, else the hardware reset (70_reset_and_hazards.md R280, R283). -/
def drawAt (sinceReset : Nat) : List (Nat × Nat) → Nat → Nat
  | [], _ => sinceReset
  | (start, n) :: older, a => if start ≤ a then n else drawAt sinceReset older a

/-- IN[a]: the stored byte, or where none has been written a free value, the same at every read
(70_reset_and_hazards.md R291; log entry 5). -/
def State.inByte (s : State) (a : Nat) : Byte :=
  match s.inBuf.read a with
  | some v => v
  | none => Config.freeIn s.inDraw a

/-- OUT[a]: the stored byte, or where none has been written a free value, the same at every read
(70_reset_and_hazards.md R283, R291; log entries 5 and 6). -/
def State.outByte (s : State) (a : Nat) : Byte :=
  match s.outBuf.read a with
  | some v => v
  | none => Config.freeOut (drawAt s.outDraw s.outAborts a) a

/-- The bytes IN[a], ..., IN[a+n-1]. -/
def State.inBytes (s : State) (a n : Nat) : List Byte := (List.range n).map fun i => s.inByte (a + i)

/-- MemRead(IN, a, n), defined only when a + n <= IN_SIZE (00_scope.md R18). -/
def memRead (s : State) (a n : Nat) : Option (List Byte) :=
  if a + n ≤ s.cfg.inSize.toNat then some (s.inBytes a n) else none

/-- MemWrite(OUT, a, bytes), defined only when a + len(bytes) <= OUT_SIZE (00_scope.md R18). -/
def memWrite (s : State) (a : Nat) (bytes : List Byte) : Option State :=
  if a + bytes.length ≤ s.cfg.outSize.toNat then some { s with outBuf := s.outBuf.writeBytes a bytes } else none

/-- Read IN and go on with the bytes; outside IN the primitive is undefined and the machine stops. -/
def loadIn (s : State) (a n : Nat) (k : List Byte → Result) : Result :=
  match memRead s a n with
  | some bytes => k bytes
  | none => .fault .readOutsideIn

/-- Write OUT and go on; outside OUT the primitive is undefined and the machine stops. -/
def storeOut (s : State) (a : Nat) (bytes : List Byte) (k : State → Result) : Result :=
  match memWrite s a bytes with
  | some t => k t
  | none => .fault .writeOutsideOut

/-! ### Issue and the three ways a command ends -/

/-- Issue: a CMD write while BUSY = 0 (20_memory.md R90). -/
def issue (w : Word) (s : State) : State :=
  { s with cmd := w, pend := some w, busy := true, done := false, pass := false, err := 0#4 }

/-- `complete(pass, outlen)`, the end of a command without error (60_exceptions.md R259). -/
def complete (pass : Bool) (outlen : Nat) (s : State) : State :=
  { s with
    outLen := BitVec.ofNat 32 outlen, pass := pass, err := 0#4, busy := false, done := true, pend := none }

/-- The error codes of STATUS.ERR (60_exceptions.md R252). -/
def CmdError.code : CmdError → BitVec 4
  | .illegal => 1#4
  | .srcRange => 2#4
  | .dstRange => 3#4

/-- `raise Error(code)`, the end of a command with error (60_exceptions.md R260). -/
def raiseError (e : CmdError) (s : State) : State :=
  { s with outLen := 0#32, pass := false, err := e.code, busy := false, done := true, pend := none }

/-! ### Resets -/

/-- Every register, CTRL_IE and PEND at its reset value; the buffers are not touched
(70_reset_and_hazards.md R280, R282). -/
def resetRegisters (s : State) : State :=
  { s with
    ctrlIE := false, busy := false, done := false, pass := false, ovr := false, err := 0#4
    cmd := 0#32, srcAddr := 0#32, srcLen := 0#32, dstAddr := 0#32, outLen := 0#32
    data := 0#32, typeTag := 0#32, crcAcc := 0xFFFFFFFF#32, pend := none }

/-- Hardware reset: all registers, and both buffers unspecified from a new draw (70_reset_and_hazards.md R280). The
host's side, its schedule, answers and bus errors, is no state of the block and stays. -/
def hardReset (s : State) : State :=
  { resetRegisters s with
    inBuf := [], outBuf := [], inDraw := s.draws, outDraw := s.draws, outAborts := [], draws := s.draws + 1 }

/-- What a soft reset does to OUT: nothing when the block is idle; when it aborts a command, every byte at or above
DST_ADDR becomes unspecified, from a new draw, and every byte below keeps its contents
(70_reset_and_hazards.md R283; log entry 6). -/
def abortOut (s : State) : State :=
  if s.busy then
    { s with
      outBuf := s.outBuf.below s.dstAddr.toNat
      outAborts := (s.dstAddr.toNat, s.draws) :: s.outAborts
      draws := s.draws + 1 }
  else s

/-- Soft reset: OUT as it stands before the registers are reset, then the registers; IN keeps its contents
(70_reset_and_hazards.md R282, R283). -/
def softReset (s : State) : State := resetRegisters (abortOut s)

/-! ### The host's side of the port -/

/-- Record what the host port answered (log entry 9). -/
def answer (a : Answer) (s : State) : State := { s with answers := a :: s.answers }

/-- An illegal access: a bus error, recorded on the host's side; no state of the block changes
(20_memory.md R85; log entry 9). -/
def busError (x : Access) (s : State) : State :=
  { s with busErrors := x :: s.busErrors, answers := .busError :: s.answers }

/-- A host write dropped because BUSY = 1: nothing changes but OVR (70_reset_and_hazards.md R285). -/
def dropWrite (s : State) : State := { s with ovr := true }

/-- Take the next free value's index (log entry 12). -/
def bumpDraws (s : State) : State := { s with draws := s.draws + 1 }

end Sys2Proof.Machine
end

