-- ==== Sys2Proof/Machine/Operands.lean ====
section
/-! DEFINITION. Integer conversions and the operand forms of the commands (00_scope.md R16, R17; 30_encoding.md R112,
R115), with the range checks that guard them (60_exceptions.md R255, R256). -/

namespace Sys2Proof.Machine

/-- `be32(v)`: the four bytes of a 32-bit value, most significant first (00_scope.md R16). -/
def be32 (v : Word) : List Byte :=
  [v.extractLsb' 24 8, v.extractLsb' 16 8, v.extractLsb' 8 8, v.extractLsb' 0 8]

/-- `BE32(s)`: s[0]*2^24 + s[1]*2^16 + s[2]*2^8 + s[3] for a 4-byte sequence (00_scope.md R16). It is used on
sequences of four bytes only; a missing byte would count as zero. -/
def unbe32 (s : List Byte) : Word :=
  BitVec.ofNat 32
    ((s.getD 0 0#8).toNat * 2 ^ 24 + (s.getD 1 0#8).toNat * 2 ^ 16 + (s.getD 2 0#8).toNat * 2 ^ 8
      + (s.getD 3 0#8).toNat)

/-- `s[i..j)`: the bytes of a sequence from index i to j-1 (00_scope.md R15). -/
def subseq (s : List Byte) (i j : Nat) : List Byte := (s.drop i).take (j - i)

/-- `tag(TYPE) = be32(TYPE)`, the four tag bytes (10_state.md R49). -/
def State.tag (s : State) : List Byte := be32 s.typeTag

/-- DATA[7:0], the operand of CRC_BYTE (41_crc.md R147). -/
def State.dataByte (s : State) : Byte := s.data.extractLsb' 0 8

/-- SRC_ADDR as a natural number (30_encoding.md R112). -/
abbrev State.src (s : State) : Nat := s.srcAddr.toNat

/-- SRC_LEN as a natural number (30_encoding.md R112). -/
abbrev State.len (s : State) : Nat := s.srcLen.toNat

/-- DST_ADDR as a natural number (30_encoding.md R112). -/
abbrev State.dst (s : State) : Nat := s.dstAddr.toNat

/-- The input of `n` bytes at SRC_ADDR lies inside IN; the sum does not wrap (60_exceptions.md R255, 00_scope.md R17). -/
abbrev State.srcFits (s : State) (n : Nat) : Prop := s.src + n ≤ s.cfg.inSize.toNat

/-- The output of `n` bytes at DST_ADDR lies inside OUT; the sum does not wrap (60_exceptions.md R256, 00_scope.md R17). -/
abbrev State.dstFits (s : State) (n : Nat) : Prop := s.dst + n ≤ s.cfg.outSize.toNat

/-- `if SRC_ADDR + n > IN_SIZE then raise Error(ERR_SRC_RANGE)`, else go on (60_exceptions.md R255). -/
def guardSrc (s : State) (n : Nat) (k : Result) : Result :=
  if s.srcFits n then k else .next (raiseError .srcRange s)

/-- `if DST_ADDR + n > OUT_SIZE then raise Error(ERR_DST_RANGE)`, else go on (60_exceptions.md R256). -/
def guardDst (s : State) (n : Nat) (k : Result) : Result :=
  if s.dstFits n then k else .next (raiseError .dstRange s)

/-- A source operand: check the range of `n` bytes at SRC_ADDR, then read them
(60_exceptions.md R255: the check comes before any read of IN). -/
def withSource (s : State) (n : Nat) (k : List Byte → Result) : Result :=
  guardSrc s n (loadIn s s.src n k)

/-- A destination operand, its range checked before: write the bytes at DST_ADDR, then complete with PASS = 1 and
OUT_LEN the number of bytes written (10_state.md R42, R55). -/
def writeOut (s : State) (bytes : List Byte) : Result :=
  storeOut s s.dst bytes fun t => .next (complete true bytes.length t)

end Sys2Proof.Machine
end

