-- ==== Sys2Proof/Machine/Framer.lean ====
section
/-! DEFINITION. The chunk framer (43_framer.md): the chunk of a tag and data, and FRAME_CHUNK. -/

namespace Sys2Proof.Machine

/-- `chunk(t, d) = be32(len(d)) ++ t ++ d ++ be32(crc32(t ++ d))` (43_framer.md R190). -/
def chunk (t d : List Byte) : List Byte := be32 (BitVec.ofNat 32 d.length) ++ t ++ d ++ be32 (crc32 (t ++ d))

/-- FRAME_CHUNK (43_framer.md R195). Both ranges are checked before IN is read, the source first. -/
def execFrameChunk (s : State) : Result :=
  guardSrc s s.len (guardDst s (12 + s.len) (loadIn s s.src s.len fun d => writeOut s (chunk s.tag d)))

end Sys2Proof.Machine
end

