-- ==== Sys2Proof/Machine/Container.lean ====
section
/-! DEFINITION. The container encoder and decoder (44_container.md), and the commands ENCODE and DECODE. -/

namespace Sys2Proof.Machine

/-- SIG, the 8-byte signature (00_scope.md R19). -/
def sig : List Byte := [0x89#8, 0x50#8, 0x4E#8, 0x47#8, 0x0D#8, 0x0A#8, 0x1A#8, 0x0A#8]

/-- T_IHDR, the tag of the header-chunk (00_scope.md R19). -/
def tagIHDR : List Byte := [0x49#8, 0x48#8, 0x44#8, 0x52#8]

/-- T_IDAT, the tag of the data-chunk (00_scope.md R19). -/
def tagIDAT : List Byte := [0x49#8, 0x44#8, 0x41#8, 0x54#8]

/-- T_IEND, the tag of the end-chunk (00_scope.md R19). -/
def tagIEND : List Byte := [0x49#8, 0x45#8, 0x4E#8, 0x44#8]

/-- HDR13, the header-chunk data (00_scope.md R19, 44_container.md R211). -/
def hdr13 : List Byte := be32 1#32 ++ be32 1#32 ++ [8#8, 6#8, 0#8, 0#8, 0#8]

/-- `encode(p)`: the container of a payload (44_container.md R214). -/
def encodeContainer (p : List Byte) : List Byte :=
  sig ++ chunk tagIHDR hdr13 ++ chunk tagIDAT p ++ chunk tagIEND []

/-- Steps 3 to 6 of the decoder, from index `p` on: the data-chunk is read and its checksum compared
(44_container.md R219 to R222). Its type is not compared with IDAT (R224). -/
def decodeDataChunk (c : List Byte) (p : Nat) : Option (List Byte) :=
  if p + 8 > c.length then none
  else
    let dlen := (unbe32 (subseq c p (p + 4))).toNat
    let dtype := subseq c (p + 4) (p + 8)
    if p + 12 + dlen > c.length then none
    else
      let payload := subseq c (p + 8) (p + 8 + dlen)
      let stored := subseq c (p + 8 + dlen) (p + 12 + dlen)
      if be32 (crc32 (dtype ++ payload)) ≠ stored then none else some payload

/-- `decode(C)`: the payload, or `none` for the one failure outcome (44_container.md R223). The header-chunk is
skipped by its length field alone (R218); all sums are natural numbers. -/
def decodeContainer (c : List Byte) : Option (List Byte) :=
  if c.length < 8 ∨ subseq c 0 8 ≠ sig then none
  else if 8 + 8 > c.length then none
  else
    let hlen := (unbe32 (subseq c 8 12)).toNat
    if 8 + 12 + hlen > c.length then none else decodeDataChunk c (8 + 12 + hlen)

/-- ENCODE (44_container.md R215). Both ranges are checked before IN is read, the source first. -/
def execEncode (s : State) : Result :=
  guardSrc s s.len (guardDst s (57 + s.len) (loadIn s s.src s.len fun p => writeOut s (encodeContainer p)))

/-- DECODE (44_container.md R227): the source check, the decode itself, and on a pass only the destination check. A
container that does not decode completes with PASS = 0 and no error. -/
def execDecode (s : State) : Result :=
  withSource s s.len fun c =>
    match decodeContainer c with
    | none => .next (complete false 0 s)
    | some payload => guardDst s payload.length (writeOut s payload)

end Sys2Proof.Machine
end

