-- ==== Sys2Proof/Machine/Pack.lean ====
section
/-! DEFINITION. The big-endian packer and unpacker (42_pack.md): PACK32 and UNPACK32. -/

namespace Sys2Proof.Machine

/-- PACK32 (42_pack.md R170). -/
def execPack32 (s : State) : Result := guardDst s 4 (writeOut s (be32 s.data))

/-- UNPACK32; SRC_LEN is not read (42_pack.md R171). -/
def execUnpack32 (s : State) : Result :=
  withSource s 4 fun bytes => .next (complete true 0 { s with data := unbe32 bytes })

end Sys2Proof.Machine
end

