-- ==== Sys2Proof/Machine/Dispatch.lean ====
section
/-! DEFINITION. From a decoded command to its meaning, one arm per constructor. -/

namespace Sys2Proof.Machine

def exec (i : Instr) (s : State) : Host.Outcome State Fault Refusal :=
  match i with
  | .crcInit => Sys2Proof.Machine.execCrcInit s
  | .crcByte => Sys2Proof.Machine.execCrcByte s
  | .crcUpdate => Sys2Proof.Machine.execCrcUpdate s
  | .crcCompute => Sys2Proof.Machine.execCrcCompute s
  | .pack32 => Sys2Proof.Machine.execPack32 s
  | .unpack32 => Sys2Proof.Machine.execUnpack32 s
  | .frameChunk => Sys2Proof.Machine.execFrameChunk s
  | .encode => Sys2Proof.Machine.execEncode s
  | .decode => Sys2Proof.Machine.execDecode s

end Sys2Proof.Machine
end

