-- ==== Sys2Proof/Machine/Flags.lean ====
section
/-! DEFINITION. The values derived from the flags: the words STATUS and CTRL read, CRC_RESULT, the interrupt output,
and what host writes of STATUS clear (10_state.md R32, R33, R51, R57). -/

namespace Sys2Proof.Machine

/-- One flag as a bit of a register: `zext_32(flag) << position`. -/
def flagBit (flag : Bool) (position : Nat) : Word := (BitVec.ofBool flag).setWidth 32 <<< position

/-- What a read of STATUS returns (10_state.md R33). -/
def State.statusWord (s : State) : Word :=
  s.err.setWidth 32 <<< 4 ||| flagBit s.ovr 3 ||| flagBit s.pass 2 ||| flagBit s.done 1 ||| flagBit s.busy 0

/-- What a read of CTRL returns, `zext_32(CTRL_IE)` (10_state.md R32). -/
def State.ctrlWord (s : State) : Word := flagBit s.ctrlIE 0

/-- What a read of CRC_RESULT returns while BUSY = 0, `~CRC_ACC` (10_state.md R51). -/
def State.crcResult (s : State) : Word := ~~~s.crcAcc

/-- The interrupt output, `CTRL_IE and DONE`, a level (10_state.md R57, 60_exceptions.md R261). -/
def State.irq (s : State) : Bool := s.ctrlIE && s.done

/-- A host write of `w` to STATUS: bit 1 clears DONE, bit 3 clears OVR, every other bit is ignored
(10_state.md R33). -/
def writeStatus (w : Word) (s : State) : State :=
  { s with done := s.done && !w.getLsbD 1, ovr := s.ovr && !w.getLsbD 3 }

/-- A host write of `w` to CTRL: CTRL_IE takes bit 0; if bit 1 is set, a soft reset follows, which also clears
CTRL_IE (10_state.md R32). -/
def writeCtrl (w : Word) (s : State) : State :=
  if w.getLsbD 1 then softReset { s with ctrlIE := w.getLsbD 0 } else { s with ctrlIE := w.getLsbD 0 }

end Sys2Proof.Machine
end

