-- ==== Sys2Proof/Machine/Port.lean ====
section
/-! DEFINITION. The host port (20_memory.md): which accesses are legal, what a read answers, what a write does, also
while a command is pending (70_reset_and_hazards.md R285, R286). -/

namespace Sys2Proof.Machine

/-- The identification constant (10_state.md R31). -/
def idValue : Word := 0x504E4743#32

/-- The register at an offset of the REG space (30_encoding.md R119); no other offset is legal (20_memory.md R82). -/
def Reg.ofOffset : Nat → Option Reg
  | 0x00 => some .id
  | 0x04 => some .ctrl
  | 0x08 => some .status
  | 0x0C => some .cmd
  | 0x10 => some .srcAddr
  | 0x14 => some .srcLen
  | 0x18 => some .dstAddr
  | 0x1C => some .outLen
  | 0x20 => some .data
  | 0x24 => some .typeTag
  | 0x28 => some .crcAcc
  | 0x2C => some .crcResult
  | 0x30 => some .inSize
  | 0x34 => some .outSize
  | 0x38 => some .reserved38
  | 0x3C => some .reserved3C
  | _ => none

/-- A 32-bit transfer. -/
def Transfer.is32 : Transfer → Bool
  | .read32 => true
  | .write32 _ => true
  | .read8 => false
  | .write8 _ => false

/-- The accesses the spaces allow (20_memory.md R82, R83, R84); every other one is illegal (R85). -/
def Access.legal (x : Access) (c : Config) : Bool :=
  match x.space with
  | .reg => x.transfer.is32 && x.offset % 4 == 0 && decide (x.offset ≤ 0x3C)
  | .inBuf => !x.transfer.is32 && decide (x.offset < c.inSize.toNat)
  | .outBuf => !x.transfer.is32 && decide (x.offset < c.outSize.toNat)

/-- The registers whose read is unspecified while BUSY = 1 (70_reset_and_hazards.md R286). -/
def Reg.unspecifiedWhileBusy : Reg → Bool
  | .data => true
  | .crcAcc => true
  | .crcResult => true
  | .outLen => true
  | .id => false
  | .ctrl => false
  | .status => false
  | .cmd => false
  | .srcAddr => false
  | .srcLen => false
  | .dstAddr => false
  | .typeTag => false
  | .inSize => false
  | .outSize => false
  | .reserved38 => false
  | .reserved3C => false

/-- The defined value of a register (10_state.md R31 to R52). -/
def State.regValue (s : State) : Reg → Word
  | .id => idValue
  | .ctrl => s.ctrlWord
  | .status => s.statusWord
  | .cmd => s.cmd
  | .srcAddr => s.srcAddr
  | .srcLen => s.srcLen
  | .dstAddr => s.dstAddr
  | .outLen => s.outLen
  | .data => s.data
  | .typeTag => s.typeTag
  | .crcAcc => s.crcAcc
  | .crcResult => s.crcResult
  | .inSize => s.cfg.inSize
  | .outSize => s.cfg.outSize
  | .reserved38 => 0#32
  | .reserved3C => 0#32

/-- A host read of a register: its defined value, or while BUSY = 1 for the four registers of R286 a free value drawn
afresh (log entry 7). -/
def readReg (r : Reg) (s : State) : State :=
  if s.busy && r.unspecifiedWhileBusy then answer (.data32 (Config.freeWord s.draws)) (bumpDraws s)
  else answer (.data32 (s.regValue r)) s

/-- A host write that is dropped while BUSY = 1, setting OVR, and takes effect otherwise
(70_reset_and_hazards.md R285). -/
def unlessBusy (s t : State) : State := if s.busy then dropWrite s else t

/-- What a host write of `w` to a register does (10_state.md R31 to R53). -/
def writeReg (r : Reg) (w : Word) (s : State) : State :=
  match r with
  | .ctrl => writeCtrl w s
  | .status => writeStatus w s
  | .cmd => unlessBusy s (issue w s)
  | .srcAddr => unlessBusy s { s with srcAddr := w }
  | .srcLen => unlessBusy s { s with srcLen := w }
  | .dstAddr => unlessBusy s { s with dstAddr := w }
  | .data => unlessBusy s { s with data := w }
  | .typeTag => unlessBusy s { s with typeTag := w }
  | .crcAcc => unlessBusy s { s with crcAcc := w }
  | .id => s
  | .outLen => s
  | .crcResult => s
  | .inSize => s
  | .outSize => s
  | .reserved38 => s
  | .reserved3C => s

/-- A legal read of IN[a], defined also while BUSY = 1 (20_memory.md R83, 70_reset_and_hazards.md R286). -/
def readIn (a : Nat) (s : State) : State := answer (.data8 (s.inByte a)) s

/-- A legal write of IN[a] (20_memory.md R83). -/
def writeIn (a : Nat) (b : Byte) (s : State) : State := unlessBusy s { s with inBuf := s.inBuf.write a b }

/-- A legal read of OUT[a]; while BUSY = 1 a free byte drawn afresh (20_memory.md R84, log entry 7). -/
def readOut (a : Nat) (s : State) : State :=
  if s.busy then answer (.data8 (Config.freeByte s.draws)) (bumpDraws s)
  else answer (.data8 (s.outByte a)) s

/-- One host transaction, whole (20_memory.md R80, R82 to R85). A legal write of OUT is ignored (R84). -/
def hostAccess (x : Access) (s : State) : State :=
  match x.space, x.transfer with
  | .reg, .read32 =>
    match Reg.ofOffset x.offset with
    | some r => readReg r s
    | none => busError x s
  | .reg, .write32 w =>
    match Reg.ofOffset x.offset with
    | some r => answer .written (writeReg r w s)
    | none => busError x s
  | .reg, .read8 => busError x s
  | .reg, .write8 _ => busError x s
  | .inBuf, .read8 => if x.offset < s.cfg.inSize.toNat then readIn x.offset s else busError x s
  | .inBuf, .write8 b =>
    if x.offset < s.cfg.inSize.toNat then answer .written (writeIn x.offset b s) else busError x s
  | .inBuf, .read32 => busError x s
  | .inBuf, .write32 _ => busError x s
  | .outBuf, .read8 => if x.offset < s.cfg.outSize.toNat then readOut x.offset s else busError x s
  | .outBuf, .write8 _ => if x.offset < s.cfg.outSize.toNat then answer .written s else busError x s
  | .outBuf, .read32 => busError x s
  | .outBuf, .write32 _ => busError x s

end Sys2Proof.Machine
end

