-- ==== Sys2Proof/Machine/Engine.lean ====
section
/-! DEFINITION. The command engine's completion step (70_reset_and_hazards.md R295), what each event does, and how a
command word is placed where the engine takes its next one. -/

namespace Sys2Proof.Machine

/-- The completion step: decode the pending word and perform its command; a word that is no command ends in
ERR_ILLEGAL. With nothing pending the step is not enabled and nothing changes
(70_reset_and_hazards.md R295, 60_exceptions.md R254; log entry 3). -/
def engineStep (s : State) : Result :=
  match s.pend with
  | none => .next s
  | some w =>
    match decode w with
    | .ok i => exec i s
    | .error _ => .next (raiseError .illegal s)

/-- One event: a host transaction, the completion step or a hardware reset (00_scope.md R22). -/
def runEvent (e : Event) (s : State) : Result :=
  match e with
  | .host x => .next (hostAccess x s)
  | .completion => engineStep s
  | .hardReset => .next (hardReset s)

/-- A command word issued (20_memory.md R90), with the engine to move next: the block fetches nothing, so this is where
its next instruction stands (log entry 10). -/
def placeCommand (w : Word) (s : State) : State :=
  { issue w s with schedule := .completion :: s.schedule }

end Sys2Proof.Machine
end

