-- ==== Sys2Proof/Machine/Step.lean ====
section
/-! DEFINITION. One step of the machine, and the placing of an instruction for the host's questions. -/

namespace Sys2Proof.Machine

/-- One step: the next event of the schedule; with the schedule used up the engine moves, so a pending command
completes (weak fairness, 70_reset_and_hazards.md R295), and an idle block stays as it is (60_exceptions.md R270).
Log entries 1 and 2. -/
def step (s : State) : Host.Outcome State Fault Refusal :=
  match s.schedule with
  | [] => engineStep s
  | e :: rest => runEvent e { s with schedule := rest }

/-- `s` with the command of `nbits` bits `w` issued and the engine to move next, so that the next step runs exactly it
(log entry 10). A number that is no 32-bit word leaves `s` as it is. -/
def State.withFetchWord (s : State) (nbits w : Nat) : State :=
  match tableWord nbits w with
  | some v => placeCommand v s
  | none => s

end Sys2Proof.Machine
end

