-- ==== Sys2Proof/Safety.lean ====
section
/-! DEFINITION. What counts as a good state and a safe step, in the terms the statements use. -/

namespace Sys2Proof.Machine

/-- What every reachable state meets. Each field names the rule it comes from. -/
structure State.Inv (s : State) : Prop where
  /-- The instance has at least one byte in each buffer (00_scope.md R9, R10). -/
  cfgWf : s.cfg.wf = true
  /-- BUSY = 1 exactly when PEND is not none (10_state.md R36). -/
  busyIffPending : s.busy = s.pend.isSome
  /-- The pending word is the word CMD reads (10_state.md R41, R56). -/
  pendingIsCmd : ∀ w, s.pend = some w → s.cmd = w
  /-- BUSY = 1 implies DONE = 0, PASS = 0 and ERR = 0 (10_state.md R34). -/
  busyQuiet : s.busy = true → s.done = false ∧ s.pass = false ∧ s.err = 0#4
  /-- ERR ≠ 0 implies PASS = 0 (10_state.md R34). -/
  errorFails : s.err ≠ 0#4 → s.pass = false
  /-- Codes 4 to 15 are never reported (60_exceptions.md R252). -/
  errorCode : s.err.toNat ≤ 3
  /-- IN is in canonical form, inside its size. -/
  inWf : s.inBuf.wf
  inWithin : s.inBuf.within s.cfg.inSize.toNat
  /-- OUT is in canonical form, inside its size. -/
  outWf : s.outBuf.wf
  outWithin : s.outBuf.within s.cfg.outSize.toNat
  /-- OUT_LEN counts bytes written to OUT (10_state.md R42). -/
  outLenFits : s.outLen.toNat ≤ s.cfg.outSize.toNat
  /-- Every draw the buffers hold has been drawn, so the next is fresh (log entry 12). -/
  inDrawn : s.inDraw < s.draws
  outDrawn : s.outDraw < s.draws
  abortsDrawn : ∀ r ∈ s.outAborts, r.2 < s.draws

/-- An outcome that goes on. -/
def Goes (r : Result) : Prop := ∃ t, r = .next t

/-- The spec's state of the block is the same in two states: the seventeen fields of 10_state.md R30, with IN and OUT
read byte by byte. -/
structure SameBlock (s t : State) : Prop where
  ctrlIE : t.ctrlIE = s.ctrlIE
  busy : t.busy = s.busy
  done : t.done = s.done
  pass : t.pass = s.pass
  ovr : t.ovr = s.ovr
  err : t.err = s.err
  cmd : t.cmd = s.cmd
  srcAddr : t.srcAddr = s.srcAddr
  srcLen : t.srcLen = s.srcLen
  dstAddr : t.dstAddr = s.dstAddr
  outLen : t.outLen = s.outLen
  data : t.data = s.data
  typeTag : t.typeTag = s.typeTag
  crcAcc : t.crcAcc = s.crcAcc
  pend : t.pend = s.pend
  inByte : ∀ a, t.inByte a = s.inByte a
  outByte : ∀ a, t.outByte a = s.outByte a

/-- What no command changes, whatever its outcome: the operand registers it reads as they stand, TYPE, CMD, CTRL_IE, OVR
and IN (30_encoding.md R115; 60_exceptions.md R259, R260), with the configuration, the host's side and the draws. -/
structure CommandFrame (s t : State) : Prop where
  ctrlIE : t.ctrlIE = s.ctrlIE
  ovr : t.ovr = s.ovr
  cmd : t.cmd = s.cmd
  srcAddr : t.srcAddr = s.srcAddr
  srcLen : t.srcLen = s.srcLen
  dstAddr : t.dstAddr = s.dstAddr
  typeTag : t.typeTag = s.typeTag
  inByte : ∀ a, t.inByte a = s.inByte a
  cfg : t.cfg = s.cfg
  draws : t.draws = s.draws
  schedule : t.schedule = s.schedule
  answers : t.answers = s.answers
  busErrors : t.busErrors = s.busErrors

/-- Every byte of OUT reads as before. -/
def SameOut (s t : State) : Prop := ∀ a, t.outByte a = s.outByte a

/-- OUT holds `bytes` at DST_ADDR, and every byte outside that range reads as before (10_state.md R55). -/
def OutHolds (s : State) (bytes : List Byte) (t : State) : Prop :=
  ∀ a, t.outByte a =
    if s.dstAddr.toNat ≤ a ∧ a < s.dstAddr.toNat + bytes.length then bytes.getD (a - s.dstAddr.toNat) 0#8
    else s.outByte a

/-- `t` is `s` after a command that wrote `bytes` at DST_ADDR and completed with PASS = 1: OUT_LEN is their number
(10_state.md R42), the completion is that of 60_exceptions.md R259, and DATA, CRC_ACC and all that no command
changes are as before. -/
structure Delivered (s : State) (bytes : List Byte) (t : State) : Prop where
  out : OutHolds s bytes t
  outLen : t.outLen.toNat = bytes.length
  pass : t.pass = true
  err : t.err = 0#4
  busy : t.busy = false
  done : t.done = true
  pend : t.pend = none
  data : t.data = s.data
  crcAcc : t.crcAcc = s.crcAcc
  frame : CommandFrame s t

/-- The command ended in error with this code: the completion of 60_exceptions.md R260 and no other change. -/
def EndsInError (s : State) (code : BitVec 4) (r : Result) : Prop :=
  r = .next { s with
    outLen := 0#32, pass := false, err := code, busy := false, done := true, pend := none }

/-- The events by which the environment or the host resets the block: a hardware reset, or a CTRL write with bit 1
set (70_reset_and_hazards.md R280, R282). -/
def Event.resets : Event → Bool
  | .hardReset => true
  | .host { space := .reg, offset := 0x04, transfer := .write32 w } => w.getLsbD 1
  | .host _ => false
  | .completion => false

/-- The next move is the engine's completion step: it is scheduled, or nothing else is. -/
def State.engineMoves (s : State) : Bool :=
  match s.schedule with
  | [] => true
  | .completion :: _ => true
  | .host _ :: _ => false
  | .hardReset :: _ => false

/-- The next move, where it is a scheduled event. -/
def State.nextEvent (s : State) : Option Event := s.schedule.head?

end Sys2Proof.Machine
end

