-- ==== Sys2Proof/Certificates/Slice0/Obligations.lean ====
section
/-! DEFINITION. The statements for the provers, each from the numbered rules of spec/. Nothing is proved here. A statement
that mentions a free value of Config holds whatever that value is. -/

open Sys2Proof Sys2Proof.Machine

/-! ### Encoding and decoding -/

/-- 30_encoding.md R110, R111, R113: every 32-bit word is the encoding of exactly one command, or of none. -/
def Obligations.DecodeInvertsEncode : Prop :=
  ∀ (w : Word) (i : Instr), decode w = .ok i ↔ w = encode i

/-- 30_encoding.md R113 and the host-port vectors V-HP-2 to V-HP-5 of 95_test_vectors.md: the nine words decode as the
opcode map says, and sample words beside them are rejected by reason. -/
def Obligations.SampleWordsDecode : Prop :=
  decode 0x00000001#32 = .ok .crcInit ∧ decode 0x00000002#32 = .ok .crcByte ∧
  decode 0x00000003#32 = .ok .crcUpdate ∧ decode 0x00000004#32 = .ok .crcCompute ∧
  decode 0x00000010#32 = .ok .pack32 ∧ decode 0x00000011#32 = .ok .unpack32 ∧
  decode 0x00000020#32 = .ok .frameChunk ∧ decode 0x00000030#32 = .ok .encode ∧
  decode 0x00000031#32 = .ok .decode ∧
  decode 0x00000000#32 = .error (.reservedOpcode 0x00#8) ∧
  decode 0x00000005#32 = .error (.reservedOpcode 0x05#8) ∧
  decode 0x000000FF#32 = .error (.reservedOpcode 0xFF#8) ∧
  decode 0x00000130#32 = .error .reservedBits

/-- 60_exceptions.md R254: the completion of a pending word with w[31:8] ≠ 0, or with w[7:0] not an opcode, ends in
ERR_ILLEGAL and writes nothing else. When the engine moves, and that the step takes the schedule's head off, are the
model's choice (log entries 1 and 2). -/
def Obligations.IllegalWordEndsInErrIllegal : Prop :=
  ∀ (s : State) (w : Word), s.engineMoves = true → s.pend = some w →
    (w.extractLsb' 8 24 ≠ 0#24 ∨
      w.extractLsb' 0 8 ∉ [0x01#8, 0x02#8, 0x03#8, 0x04#8, 0x10#8, 0x11#8, 0x20#8, 0x30#8, 0x31#8]) →
    EndsInError { s with schedule := s.schedule.tail } 1#4 (step s)

/-! ### The step -/

/-- 70_reset_and_hazards.md R295: when the engine moves and the pending word decodes to a well-formed command, the
step is that command's meaning; around it the step takes the scheduled completion off the schedule, nothing else. That
a schedule in the state says who moves next is the model's choice (log entries 1 and 2). -/
def Obligations.StepRunsTheDecodedCommand : Prop :=
  ∀ (s : State) (w : Word) (i : Instr), s.engineMoves = true → s.pend = some w → decode w = .ok i → i.wf = true →
    step s = exec i { s with schedule := s.schedule.tail }

/-- The model's own way of placing a word (log entry 10): the next step issues-and-completes exactly that command. -/
def Obligations.FetchedWordRunsNext : Prop :=
  ∀ (s : State) (w : Word) (i : Instr), decode w = .ok i →
    decodeTableWord 32 w.toNat = some i ∧ step (s.withFetchWord 32 w.toNat) = exec i (issue w s)

/-- 70_reset_and_hazards.md R295, 00_scope.md R11: a pending command eventually completes. After the schedule and one
step more, from every state, nothing is pending, and in a good state BUSY is 0. The schedule and its end are the
model's (log entries 1 and 2). -/
def Obligations.PendingCommandCompletes : Prop :=
  ∀ s : State, ∃ t : State, Host.Core.run Sys2Proof.core (s.schedule.length + 1) s = .next t ∧
    t.pend = none ∧ t.schedule = [] ∧ (s.Inv → t.busy = false)

/-- 60_exceptions.md R251: the PNGC raises no trap or fault. From every state a step goes on; so the model's two
faults, its own choice (log entry 13), are never raised. -/
def Obligations.NoStepFaultsOrIsRefused : Prop := ∀ s : State, Goes (step s)

/-- The state after reset is a good state, for every configuration the spec allows (70_reset_and_hazards.md R280). -/
def Obligations.ResetMeetsTheInvariant : Prop :=
  State.reset.Inv ∧ ∀ c : Config, c.wf = true → State.Inv { State.reset with cfg := c }

/-- Every step from a good state leads to a good state: the STATUS combinations of 10_state.md R34, BUSY and PEND in
step (R36), the error codes of 60_exceptions.md R252, the buffers inside their sizes, OUT_LEN inside OUT. The buffers'
canonical form and the draws are the model's own (log entries 8 and 12). -/
def Obligations.EveryStepKeepsTheInvariant : Prop :=
  ∀ s t : State, s.Inv → step s = .next t → t.Inv

/-- 00_scope.md R9, R10 and 20_memory.md R85: no step changes the configuration, and the record of bus errors only
grows, never cleared, not even by a reset, which is the model's choice (log entry 9). -/
def Obligations.StepKeepsConfigAndBusErrors : Prop :=
  ∀ s t : State, step s = .next t →
    t.cfg = s.cfg ∧ ∃ new : List Access, t.busErrors = new ++ s.busErrors ∧ new.length ≤ 1

/-! ### The host port -/

/-- 20_memory.md R82 to R85: an access is legal exactly as the three spaces say; an illegal one changes no state of
the block and answers a bus error, which is recorded; a legal one answers no bus error and records none. The record
and the list of answers are the model's form of the host's side (log entry 9). -/
def Obligations.IllegalAccessIsABusError : Prop :=
  ∀ (x : Access) (s : State),
    let legal : Prop :=
      match x.space, x.transfer with
      | .reg, .read32 => x.offset % 4 = 0 ∧ x.offset ≤ 0x3C
      | .reg, .write32 _ => x.offset % 4 = 0 ∧ x.offset ≤ 0x3C
      | .inBuf, .read8 => x.offset < s.cfg.inSize.toNat
      | .inBuf, .write8 _ => x.offset < s.cfg.inSize.toNat
      | .outBuf, .read8 => x.offset < s.cfg.outSize.toNat
      | .outBuf, .write8 _ => x.offset < s.cfg.outSize.toNat
      | _, _ => False
    (¬ legal → hostAccess x s =
      { s with answers := .busError :: s.answers, busErrors := x :: s.busErrors }) ∧
    (legal → (hostAccess x s).busErrors = s.busErrors ∧
      ∃ a : Answer, a ≠ .busError ∧ (hostAccess x s).answers = a :: s.answers) ∧
    (x.legal s.cfg = true ↔ legal)

/-- 20_memory.md R91: reads of every register and buffer byte, legal or not, busy or not, have no side effect on the
block. -/
def Obligations.ReadsHaveNoSideEffect : Prop :=
  ∀ (x : Access) (s : State), x.transfer = .read8 ∨ x.transfer = .read32 → SameBlock s (hostAccess x s)

/-- 10_state.md R31 to R52 and 70_reset_and_hazards.md R286, R287: what a read of each register answers, and of an IN
byte, busy or not; what the four result registers and an OUT byte answer while BUSY = 0; and that while BUSY = 1 they
answer a free value drawn afresh, in the model's form (log entry 7). -/
def Obligations.ReadsAnswerTheirValues : Prop :=
  ∀ s : State,
    (∀ p ∈ [((0x00 : Nat), 0x504E4743#32), (0x04, s.ctrlWord), (0x08, s.statusWord), (0x0C, s.cmd),
        (0x10, s.srcAddr), (0x14, s.srcLen), (0x18, s.dstAddr), (0x24, s.typeTag), (0x30, s.cfg.inSize),
        (0x34, s.cfg.outSize), (0x38, 0#32), (0x3C, 0#32)],
      hostAccess ⟨.reg, p.1, .read32⟩ s = answer (.data32 p.2) s) ∧
    (∀ a < s.cfg.inSize.toNat, hostAccess ⟨.inBuf, a, .read8⟩ s = answer (.data8 (s.inByte a)) s) ∧
    (s.busy = false →
      (∀ p ∈ [((0x1C : Nat), s.outLen), (0x20, s.data), (0x28, s.crcAcc), (0x2C, ~~~s.crcAcc)],
        hostAccess ⟨.reg, p.1, .read32⟩ s = answer (.data32 p.2) s) ∧
      ∀ a < s.cfg.outSize.toNat, hostAccess ⟨.outBuf, a, .read8⟩ s = answer (.data8 (s.outByte a)) s) ∧
    (s.busy = true →
      (∀ off ∈ [(0x1C : Nat), 0x20, 0x28, 0x2C], hostAccess ⟨.reg, off, .read32⟩ s =
        { s with answers := .data32 (Config.freeWord s.draws) :: s.answers, draws := s.draws + 1 }) ∧
      ∀ a < s.cfg.outSize.toNat, hostAccess ⟨.outBuf, a, .read8⟩ s =
        { s with answers := .data8 (Config.freeByte s.draws) :: s.answers, draws := s.draws + 1 })

/-- 10_state.md R32, R33: the words STATUS and CTRL read hold each flag at its bit, all other bits zero. -/
def Obligations.StatusAndCtrlWordLayout : Prop :=
  ∀ s : State,
    s.statusWord.toNat =
      16 * s.err.toNat + 8 * s.ovr.toNat + 4 * s.pass.toNat + 2 * s.done.toNat + s.busy.toNat ∧
    s.ctrlWord.toNat = s.ctrlIE.toNat

/-- 10_state.md R32, R33: a host write of STATUS clears DONE by bit 1 and OVR by bit 3 and does nothing else; a host
write of CTRL without bit 1 sets CTRL_IE to bit 0 and does nothing else; both busy or not. -/
def Obligations.StatusAndCtrlWrites : Prop :=
  ∀ (s : State) (w : Word),
    hostAccess ⟨.reg, 0x08, .write32 w⟩ s = answer .written { s with
      done := if w.getLsbD 1 then false else s.done, ovr := if w.getLsbD 3 then false else s.ovr } ∧
    (w.getLsbD 1 = false →
      hostAccess ⟨.reg, 0x04, .write32 w⟩ s = answer .written { s with ctrlIE := w.getLsbD 0 })

/-- 20_memory.md R90: issue, the whole effect of a CMD write while BUSY = 0; every word is accepted. -/
def Obligations.CmdWriteIssues : Prop :=
  ∀ (s : State) (w : Word), s.busy = false →
    hostAccess ⟨.reg, 0x0C, .write32 w⟩ s =
      answer .written { s with
        cmd := w, pend := some w, busy := true, done := false, pass := false, err := 0#4 }

/-- 10_state.md R45 to R50, R53 and 20_memory.md R83: while BUSY = 0 a host write of an operand register stores all 32
bits, and a write of an IN byte stores that byte and no other. -/
def Obligations.IdleWritesTakeEffect : Prop :=
  ∀ (s : State) (w : Word), s.busy = false →
    hostAccess ⟨.reg, 0x10, .write32 w⟩ s = answer .written { s with srcAddr := w } ∧
    hostAccess ⟨.reg, 0x14, .write32 w⟩ s = answer .written { s with srcLen := w } ∧
    hostAccess ⟨.reg, 0x18, .write32 w⟩ s = answer .written { s with dstAddr := w } ∧
    hostAccess ⟨.reg, 0x20, .write32 w⟩ s = answer .written { s with data := w } ∧
    hostAccess ⟨.reg, 0x24, .write32 w⟩ s = answer .written { s with typeTag := w } ∧
    hostAccess ⟨.reg, 0x28, .write32 w⟩ s = answer .written { s with crcAcc := w } ∧
    ∀ (a : Nat) (b : Byte), a < s.cfg.inSize.toNat → ∃ t : State,
      hostAccess ⟨.inBuf, a, .write8 b⟩ s = answer .written t ∧
      t = { s with inBuf := t.inBuf } ∧ ∀ a', t.inByte a' = if a' = a then b else s.inByte a'

/-- 70_reset_and_hazards.md R285: host writes while BUSY = 1. -/
def Obligations.WritesWhileBusyAreDropped : Prop :=
  ∀ s : State, s.busy = true →
    (∀ off ∈ [(0x0C : Nat), 0x10, 0x14, 0x18, 0x20, 0x24, 0x28], ∀ w : Word,
      hostAccess ⟨.reg, off, .write32 w⟩ s = answer .written { s with ovr := true }) ∧
    (∀ (a : Nat) (b : Byte), a < s.cfg.inSize.toNat →
      hostAccess ⟨.inBuf, a, .write8 b⟩ s = answer .written { s with ovr := true }) ∧
    (∀ w : Word, hostAccess ⟨.reg, 0x04, .write32 w⟩ s = answer .written (writeCtrl w s) ∧
      hostAccess ⟨.reg, 0x08, .write32 w⟩ s = answer .written (writeStatus w s)) ∧
    (∀ off ∈ [(0x00 : Nat), 0x1C, 0x2C, 0x30, 0x34, 0x38, 0x3C], ∀ w : Word,
      hostAccess ⟨.reg, off, .write32 w⟩ s = answer .written s) ∧
    (∀ (a : Nat) (b : Byte), a < s.cfg.outSize.toNat →
      hostAccess ⟨.outBuf, a, .write8 b⟩ s = answer .written s)

/-- 20_memory.md R91, 70_reset_and_hazards.md R285: a write of STATUS, of an operand register or of an IN byte is
idempotent, busy or not: twice leaves the block as once. A CMD write is not: while BUSY = 0 it issues, and its
repetition is dropped with OVR set. -/
def Obligations.RepeatedWrites : Prop :=
  (∀ (x : Access) (s : State),
    (∃ w : Word, x.transfer = .write32 w ∧ x.space = .reg ∧
        x.offset ∈ [(0x08 : Nat), 0x10, 0x14, 0x18, 0x20, 0x24, 0x28]) ∨
      (∃ b : Byte, x.transfer = .write8 b ∧ x.space = .inBuf ∧ x.offset < s.cfg.inSize.toNat) →
    SameBlock (hostAccess x s) (hostAccess x (hostAccess x s))) ∧
  ∀ (s : State) (w : Word), s.busy = false →
    SameBlock { issue w s with ovr := true }
      (hostAccess ⟨.reg, 0x0C, .write32 w⟩ (hostAccess ⟨.reg, 0x0C, .write32 w⟩ s))

/-- 10_state.md R52, R53, R55 and 20_memory.md R84: writes of read-only registers, reserved offsets and OUT bytes are
ignored, busy or not, and do not set OVR. -/
def Obligations.ReadOnlyWritesAreIgnored : Prop :=
  ∀ s : State,
    (∀ off ∈ [(0x00 : Nat), 0x1C, 0x2C, 0x30, 0x34, 0x38, 0x3C], ∀ w : Word,
      hostAccess ⟨.reg, off, .write32 w⟩ s = answer .written s) ∧
    ∀ (a : Nat) (b : Byte), a < s.cfg.outSize.toNat →
      hostAccess ⟨.outBuf, a, .write8 b⟩ s = answer .written s

/-- 10_state.md R39: the whole life of OVR over a step. It rises exactly when a host write to a busy target is
dropped, and it falls by a STATUS write with bit 3 or by a reset and by nothing else; so an issue and a completion
leave it unchanged. -/
def Obligations.OverrunRisesAndFallsAsStated : Prop :=
  ∀ s t : State, step s = .next t →
    (s.ovr = false → t.ovr = true → s.busy = true ∧ ∃ x : Access, s.nextEvent = some (.host x) ∧
      ((∃ w : Word, x.transfer = .write32 w ∧ x.space = .reg ∧
          x.offset ∈ [(0x0C : Nat), 0x10, 0x14, 0x18, 0x20, 0x24, 0x28]) ∨
        ∃ b : Byte, x.transfer = .write8 b ∧ x.space = .inBuf ∧ x.offset < s.cfg.inSize.toNat)) ∧
    (s.ovr = true → (t.ovr = false ↔ ∃ e : Event, s.nextEvent = some e ∧
      (e.resets = true ∨ ∃ w : Word, w.getLsbD 3 = true ∧ e = .host ⟨.reg, 0x08, .write32 w⟩))) ∧
    (s.busy = true → ∀ (off : Nat) (w : Word), off ∈ [(0x0C : Nat), 0x10, 0x14, 0x18, 0x20, 0x24, 0x28] →
      s.nextEvent = some (.host ⟨.reg, off, .write32 w⟩) → t.ovr = true) ∧
    (s.busy = true → ∀ (a : Nat) (b : Byte), a < s.cfg.inSize.toNat →
      s.nextEvent = some (.host ⟨.inBuf, a, .write8 b⟩) → t.ovr = true)

/-- 10_state.md R36, R37: BUSY rises only by an issue, which leaves the word in CMD and PEND and DONE at 0; it falls
only by a completion, which leaves DONE at 1 and nothing pending, or by a reset. -/
def Obligations.BusyRisesByIssueAndFallsByCompletion : Prop :=
  ∀ s t : State, step s = .next t →
    (s.busy = false → t.busy = true → ∃ w : Word, s.nextEvent = some (.host ⟨.reg, 0x0C, .write32 w⟩) ∧
      t.cmd = w ∧ t.pend = some w ∧ t.done = false) ∧
    (s.busy = true → t.busy = false →
      (s.engineMoves = true ∧ s.pend ≠ none ∧ t.done = true ∧ t.pend = none) ∨
      ∃ e : Event, s.nextEvent = some e ∧ e.resets = true)

/-- 10_state.md R54 and 70_reset_and_hazards.md R291: a byte of IN changes only by a legal host write of that byte
while BUSY = 0 or by a hardware reset; no command and no soft reset writes IN, and an unwritten byte reads the same.
-/
def Obligations.InChangesOnlyByHostWriteOrReset : Prop :=
  ∀ (s t : State) (a : Nat), step s = .next t → t.inByte a ≠ s.inByte a →
    s.nextEvent = some .hardReset ∨
    (s.busy = false ∧ a < s.cfg.inSize.toNat ∧
      s.nextEvent = some (.host ⟨.inBuf, a, .write8 (t.inByte a)⟩))

/-- 10_state.md R55 and 70_reset_and_hazards.md R283, R291: a byte of OUT changes only by a completion of a command
that writes OUT, at offsets DST_ADDR to DST_ADDR + OUT_LEN - 1, by a hardware reset, or, at or above DST_ADDR, by a
soft reset that aborts a command. -/
def Obligations.OutChangesOnlyByCommandOrReset : Prop :=
  ∀ (s t : State) (a : Nat), step s = .next t → t.outByte a ≠ s.outByte a →
    s.nextEvent = some .hardReset ∨
    (s.engineMoves = true ∧ s.pend ∈ [some (encode .pack32), some (encode .frameChunk), some (encode .encode),
        some (encode .decode)] ∧ s.dstAddr.toNat ≤ a ∧ a < s.dstAddr.toNat + t.outLen.toNat) ∨
    (s.busy = true ∧ s.dstAddr.toNat ≤ a ∧ ∃ w : Word, w.getLsbD 1 = true ∧
      s.nextEvent = some (.host ⟨.reg, 0x04, .write32 w⟩))

/-- 20_memory.md R94 and 70_reset_and_hazards.md R285: between issue and completion, whatever step is taken short of a
reset, the command's inputs stand: SRC_ADDR, SRC_LEN, DST_ADDR, TYPE, CMD and IN; and until the engine moves also
PEND, BUSY, DATA, CRC_ACC, OUT_LEN and OUT. -/
def Obligations.InputsStandWhileBusy : Prop :=
  ∀ s t : State, s.busy = true → step s = .next t → (∀ e, s.nextEvent = some e → e.resets = false) →
    (t.srcAddr = s.srcAddr ∧ t.srcLen = s.srcLen ∧ t.dstAddr = s.dstAddr ∧ t.typeTag = s.typeTag ∧ t.cmd = s.cmd ∧
      ∀ a, t.inByte a = s.inByte a) ∧
    (s.engineMoves = false → t.pend = s.pend ∧ t.busy = true ∧ t.data = s.data ∧ t.crcAcc = s.crcAcc ∧
      t.outLen = s.outLen ∧ ∀ a, t.outByte a = s.outByte a)

/-- 20_memory.md R94 and 70_reset_and_hazards.md R285, R289: the host cannot disturb a pending command. However many
host transactions short of a reset come between, the completion leaves the results the command gives at once. The
schedule is the model's form of an interleaving (log entry 1). -/
def Obligations.HostCannotDisturbAPendingCommand : Prop :=
  ∀ (s : State) (w : Word) (i : Instr) (xs : List Access) (rest : List Event) (t : State),
    s.busy = true → s.pend = some w → decode w = .ok i →
    (∀ x ∈ xs, (Event.host x).resets = false) →
    s.schedule = xs.map Event.host ++ .completion :: rest → exec i s = .next t →
    ∃ u : State, Host.Core.run Sys2Proof.core (xs.length + 1) s = .next u ∧
      u.pass = t.pass ∧ u.err = t.err ∧ u.outLen = t.outLen ∧ u.data = t.data ∧ u.crcAcc = t.crcAcc ∧
      u.busy = false ∧ u.done = true ∧ u.pend = none ∧ u.schedule = rest ∧
      (∀ a, u.outByte a = t.outByte a) ∧ ∀ a, u.inByte a = s.inByte a

/-! ### Reset and interrupt -/

/-- 70_reset_and_hazards.md R280, R281: a hardware reset, at any time, also while BUSY = 1, sets every piece of state
as the table says; the bytes of IN and OUT are free values of a draw not used before (log entry 5). -/
def Obligations.HardwareResetValues : Prop :=
  ∀ (s : State) (rest : List Event), s.schedule = .hardReset :: rest → ∃ t : State, step s = .next t ∧
    t.ctrlIE = false ∧ t.busy = false ∧ t.done = false ∧ t.pass = false ∧ t.ovr = false ∧ t.err = 0#4 ∧
    t.cmd = 0#32 ∧ t.srcAddr = 0#32 ∧ t.srcLen = 0#32 ∧ t.dstAddr = 0#32 ∧ t.outLen = 0#32 ∧ t.data = 0#32 ∧
    t.typeTag = 0#32 ∧ t.crcAcc = 0xFFFFFFFF#32 ∧ t.crcResult = 0#32 ∧ t.pend = none ∧ t.irq = false ∧
    (∀ a, t.inByte a = Config.freeIn s.draws a) ∧ (∀ a, t.outByte a = Config.freeOut s.draws a) ∧
    s.draws < t.draws ∧ t.cfg = s.cfg ∧ t.schedule = rest ∧ t.answers = s.answers ∧ t.busErrors = s.busErrors

/-- 70_reset_and_hazards.md R280, R281: the state the machine starts from has the table's values, is idle, with its
interrupt masked. That no byte of IN or OUT is stored is the model's form of unspecified contents (log entries 5 and
8). -/
def Obligations.ResetStateHasTheStatedValues : Prop :=
  State.reset.ctrlIE = false ∧ State.reset.statusWord = 0#32 ∧ State.reset.cmd = 0#32 ∧
  State.reset.srcAddr = 0#32 ∧ State.reset.srcLen = 0#32 ∧ State.reset.dstAddr = 0#32 ∧
  State.reset.outLen = 0#32 ∧ State.reset.data = 0#32 ∧ State.reset.typeTag = 0#32 ∧
  State.reset.crcAcc = 0xFFFFFFFF#32 ∧ State.reset.crcResult = 0#32 ∧ State.reset.pend = none ∧
  State.reset.irq = false ∧ State.reset.inBuf = [] ∧ State.reset.outBuf = []

/-- 70_reset_and_hazards.md R282, R283: a CTRL write with bit 1 set, accepted also while BUSY = 1, resets every
register, CTRL_IE and PEND, whatever its bit 0; IN is kept; OUT is kept when idle; when it aborts a command, OUT below
the earlier DST_ADDR is kept and every byte at or above it is a free value of a draw not used before (log entry 6). -/
def Obligations.SoftResetKeepsAndClears : Prop :=
  ∀ (s : State) (w : Word), w.getLsbD 1 = true → ∃ t : State,
    hostAccess ⟨.reg, 0x04, .write32 w⟩ s = answer .written t ∧
    t.ctrlIE = false ∧ t.busy = false ∧ t.done = false ∧ t.pass = false ∧ t.ovr = false ∧ t.err = 0#4 ∧
    t.cmd = 0#32 ∧ t.srcAddr = 0#32 ∧ t.srcLen = 0#32 ∧ t.dstAddr = 0#32 ∧ t.outLen = 0#32 ∧ t.data = 0#32 ∧
    t.typeTag = 0#32 ∧ t.crcAcc = 0xFFFFFFFF#32 ∧ t.pend = none ∧ t.cfg = s.cfg ∧ t.schedule = s.schedule ∧
    (∀ a, t.inByte a = s.inByte a) ∧
    (s.busy = false → ∀ a, t.outByte a = s.outByte a) ∧
    (s.busy = true → (∀ a, a < s.dstAddr.toNat → t.outByte a = s.outByte a) ∧
      (∀ a, s.dstAddr.toNat ≤ a → t.outByte a = Config.freeOut s.draws a) ∧ s.draws < t.draws)

/-- 60_exceptions.md R261, 10_state.md R57: `irq` rises at a completion while IE = 1, of whatever command and outcome,
or when IE is set while DONE = 1; it falls by a STATUS write with bit 1, the next issue, a reset, or IE cleared. -/
def Obligations.InterruptRisesAndFalls : Prop :=
  (∀ (i : Instr) (s t : State), exec i s = .next t → t.irq = s.ctrlIE) ∧
  (∀ (s t : State) (w : Word), s.engineMoves = true → s.pend = some w → step s = .next t → t.irq = s.ctrlIE) ∧
  (∀ (s : State) (w : Word), w.getLsbD 1 = false →
    (hostAccess ⟨.reg, 0x04, .write32 w⟩ s).irq = (w.getLsbD 0 && s.done)) ∧
  (∀ (s : State) (w : Word), w.getLsbD 1 = true →
    (hostAccess ⟨.reg, 0x08, .write32 w⟩ s).irq = false ∧ (hostAccess ⟨.reg, 0x04, .write32 w⟩ s).irq = false) ∧
  (∀ (s : State) (w : Word), s.busy = false → (hostAccess ⟨.reg, 0x0C, .write32 w⟩ s).irq = false) ∧
  (∀ s : State, (hardReset s).irq = false)

/-! ### The commands, each whole: encoding, result and errors -/

/-- 41_crc.md R146. -/
def Obligations.CrcInitStartsTheAccumulator : Prop :=
  encode .crcInit = 0x00000001#32 ∧ ∀ s : State, ∃ t : State,
    t = { s with
      crcAcc := 0xFFFFFFFF#32, outLen := 0#32, pass := true, err := 0#4, busy := false, done := true, pend := none } ∧
    exec .crcInit s = .next t ∧ t.crcResult = 0#32 ∧ exec .crcInit t = .next t

/-- 41_crc.md R147. -/
def Obligations.CrcByteFoldsOneByte : Prop :=
  encode .crcByte = 0x00000002#32 ∧
  (∀ s : State, exec .crcByte s = .next { s with
    crcAcc := crcStep s.crcAcc (s.data.extractLsb' 0 8), outLen := 0#32, pass := true, err := 0#4, busy := false
    done := true, pend := none }) ∧
  crcStep 0xFFFFFFFF#32 0x00#8 = 0x2DFD1072#32 ∧ crcStep 0xFFFFFFFF#32 0xFF#8 = 0x00FFFFFF#32 ∧
  crcStep 0xFFFFFFFF#32 0x61#8 = 0x174841BC#32 ∧ ~~~(0x174841BC#32) = 0xE8B7BE43#32 ∧
  crc32 [0x61#8] = 0xE8B7BE43#32

/-- 41_crc.md R148. -/
def Obligations.CrcUpdateFoldsTheSource : Prop :=
  encode .crcUpdate = 0x00000003#32 ∧
  (∀ s : State, s.srcFits s.srcLen.toNat → exec .crcUpdate s = .next { s with
    crcAcc := crcFold s.crcAcc (s.inBytes s.srcAddr.toNat s.srcLen.toNat), outLen := 0#32, pass := true, err := 0#4
    busy := false, done := true, pend := none }) ∧
  (∀ s : State, ¬ s.srcFits s.srcLen.toNat → EndsInError s 2#4 (exec .crcUpdate s)) ∧
  (∀ s : State, s.srcLen = 0#32 → s.srcAddr.toNat ≤ s.cfg.inSize.toNat → exec .crcUpdate s = .next { s with
    outLen := 0#32, pass := true, err := 0#4, busy := false, done := true, pend := none }) ∧
  (∀ s : State, s.srcLen = 0#32 → s.srcAddr.toNat > s.cfg.inSize.toNat →
    EndsInError s 2#4 (exec .crcUpdate s)) ∧
  (∀ (acc : Word) (a b : List Byte), crcFold (crcFold acc a) b = crcFold acc (a ++ b)) ∧
  crcFold 0xFFFFFFFF#32 [0x31#8, 0x32#8, 0x33#8, 0x34#8, 0x35#8, 0x36#8, 0x37#8, 0x38#8, 0x39#8] = 0x340BC6D9#32 ∧
  ~~~(0x340BC6D9#32) = 0xCBF43926#32

/-- 41_crc.md R149. -/
def Obligations.CrcComputeChecksumsTheSource : Prop :=
  encode .crcCompute = 0x00000004#32 ∧
  (∀ s : State, s.srcFits s.srcLen.toNat → ∃ t : State,
    t = { s with
      crcAcc := crcFold 0xFFFFFFFF#32 (s.inBytes s.srcAddr.toNat s.srcLen.toNat)
      data := crc32 (s.inBytes s.srcAddr.toNat s.srcLen.toNat)
      outLen := 0#32, pass := true, err := 0#4, busy := false, done := true, pend := none } ∧
    exec .crcCompute s = .next t ∧ t.data = t.crcResult) ∧
  (∀ s : State, ¬ s.srcFits s.srcLen.toNat → EndsInError s 2#4 (exec .crcCompute s)) ∧
  crc32 [] = 0x00000000#32 ∧ crcFold 0xFFFFFFFF#32 [] = 0xFFFFFFFF#32 ∧
  crc32 [0x49#8, 0x45#8, 0x4E#8, 0x44#8] = 0xAE426082#32 ∧
  crcFold 0xFFFFFFFF#32 [0x49#8, 0x45#8, 0x4E#8, 0x44#8] = 0x51BD9F7D#32

/-- 42_pack.md R170. -/
def Obligations.Pack32WritesDataBigEndian : Prop :=
  encode .pack32 = 0x00000010#32 ∧
  (∀ s : State, s.dstFits 4 → ∃ t : State, exec .pack32 s = .next t ∧
    Delivered s [s.data.extractLsb' 24 8, s.data.extractLsb' 16 8, s.data.extractLsb' 8 8, s.data.extractLsb' 0 8] t) ∧
  (∀ s : State, ¬ s.dstFits 4 → EndsInError s 3#4 (exec .pack32 s)) ∧
  be32 0x0000000D#32 = [0x00#8, 0x00#8, 0x00#8, 0x0D#8]

/-- 42_pack.md R171. -/
def Obligations.Unpack32ReadsDataBigEndian : Prop :=
  encode .unpack32 = 0x00000011#32 ∧
  (∀ s : State, s.srcFits 4 → ∃ t : State, exec .unpack32 s = .next t ∧
    t = { s with
      data := t.data, outLen := 0#32, pass := true, err := 0#4, busy := false, done := true, pend := none } ∧
    t.data.toNat = (s.inByte s.srcAddr.toNat).toNat * 2 ^ 24 + (s.inByte (s.srcAddr.toNat + 1)).toNat * 2 ^ 16 +
      (s.inByte (s.srcAddr.toNat + 2)).toNat * 2 ^ 8 + (s.inByte (s.srcAddr.toNat + 3)).toNat) ∧
  (∀ s : State, ¬ s.srcFits 4 → EndsInError s 2#4 (exec .unpack32 s)) ∧
  unbe32 [0xFF#8, 0xFF#8, 0xFF#8, 0xFF#8] = 0xFFFFFFFF#32 ∧ unbe32 [0x00#8, 0x00#8, 0x00#8, 0x0D#8] = 0x0000000D#32

/-- 43_framer.md R195. -/
def Obligations.FrameChunkWritesTheChunk : Prop :=
  encode .frameChunk = 0x00000020#32 ∧
  (∀ s : State, s.srcFits s.srcLen.toNat → s.dstFits (12 + s.srcLen.toNat) →
    ∃ t : State, exec .frameChunk s = .next t ∧
      Delivered s (be32 s.srcLen ++ be32 s.typeTag ++ s.inBytes s.srcAddr.toNat s.srcLen.toNat ++
        be32 (crc32 (be32 s.typeTag ++ s.inBytes s.srcAddr.toNat s.srcLen.toNat))) t ∧
      t.outLen.toNat = 12 + s.srcLen.toNat) ∧
  (∀ s : State, ¬ s.srcFits s.srcLen.toNat → EndsInError s 2#4 (exec .frameChunk s)) ∧
  (∀ s : State, s.srcFits s.srcLen.toNat → ¬ s.dstFits (12 + s.srcLen.toNat) →
    EndsInError s 3#4 (exec .frameChunk s)) ∧
  chunk (be32 0x49454E44#32) [] =
    [0x00#8, 0x00#8, 0x00#8, 0x00#8, 0x49#8, 0x45#8, 0x4E#8, 0x44#8, 0xAE#8, 0x42#8, 0x60#8, 0x82#8]

/-- 44_container.md R215. -/
def Obligations.EncodeWritesTheContainer : Prop :=
  encode .encode = 0x00000030#32 ∧
  (∀ s : State, s.srcFits s.srcLen.toNat → s.dstFits (57 + s.srcLen.toNat) →
    ∃ t : State, exec .encode s = .next t ∧
      Delivered s (encodeContainer (s.inBytes s.srcAddr.toNat s.srcLen.toNat)) t ∧
      t.outLen.toNat = 57 + s.srcLen.toNat) ∧
  (∀ s : State, ¬ s.srcFits s.srcLen.toNat → EndsInError s 2#4 (exec .encode s)) ∧
  (∀ s : State, s.srcFits s.srcLen.toNat → ¬ s.dstFits (57 + s.srcLen.toNat) → EndsInError s 3#4 (exec .encode s))

/-- 44_container.md R227. -/
def Obligations.DecodeWritesThePayloadOrFails : Prop :=
  encode .decode = 0x00000031#32 ∧
  (∀ (s : State) (p : List Byte), s.srcFits s.srcLen.toNat →
    decodeContainer (s.inBytes s.srcAddr.toNat s.srcLen.toNat) = some p → p.length + 32 ≤ s.srcLen.toNat ∧
      (s.dstFits p.length → ∃ t : State, exec .decode s = .next t ∧ Delivered s p t) ∧
      (¬ s.dstFits p.length → EndsInError s 3#4 (exec .decode s))) ∧
  (∀ s : State, s.srcFits s.srcLen.toNat → decodeContainer (s.inBytes s.srcAddr.toNat s.srcLen.toNat) = none →
    exec .decode s = .next { s with
      outLen := 0#32, pass := false, err := 0#4, busy := false, done := true, pend := none }) ∧
  (∀ s : State, ¬ s.srcFits s.srcLen.toNat → EndsInError s 2#4 (exec .decode s)) ∧
  ∀ p : List Byte, p.length < 2 ^ 32 → ∃ c : List Byte, c.length = p.length + 32 ∧ decodeContainer c = some p

/-! ### What all commands share -/

/-- 60_exceptions.md R255: an input range that leaves IN, the sum not wrapped, ends in ERR_SRC_RANGE. -/
def Obligations.SourceRangeErrors : Prop :=
  (∀ (s : State) (i : Instr), i ∈ [Instr.crcUpdate, .crcCompute, .frameChunk, .encode, .decode] →
    s.srcAddr.toNat + s.srcLen.toNat > s.cfg.inSize.toNat → EndsInError s 2#4 (exec i s)) ∧
  (∀ s : State, s.srcAddr.toNat + 4 > s.cfg.inSize.toNat → EndsInError s 2#4 (exec .unpack32 s))

/-- 60_exceptions.md R256, R257: an output range that leaves OUT ends in ERR_DST_RANGE; ERR_SRC_RANGE comes first;
DECODE checks the destination only after a pass, so its failure is reported even where OUT could not hold a payload;
and an illegal word ends in ERR_ILLEGAL whatever the ranges. -/
def Obligations.DestinationRangeErrorsAndPriority : Prop :=
  (∀ s : State, s.dstAddr.toNat + 4 > s.cfg.outSize.toNat → EndsInError s 3#4 (exec .pack32 s)) ∧
  (∀ s : State, s.dstAddr.toNat + 12 + s.srcLen.toNat > s.cfg.outSize.toNat →
    EndsInError s (if s.srcAddr.toNat + s.srcLen.toNat > s.cfg.inSize.toNat then 2#4 else 3#4) (exec .frameChunk s)) ∧
  (∀ s : State, s.dstAddr.toNat + 57 + s.srcLen.toNat > s.cfg.outSize.toNat →
    EndsInError s (if s.srcAddr.toNat + s.srcLen.toNat > s.cfg.inSize.toNat then 2#4 else 3#4) (exec .encode s)) ∧
  (∀ s : State, s.srcAddr.toNat + s.srcLen.toNat > s.cfg.inSize.toNat → EndsInError s 2#4 (exec .decode s)) ∧
  (∀ (s : State) (p : List Byte), s.srcAddr.toNat + s.srcLen.toNat ≤ s.cfg.inSize.toNat →
    decodeContainer (s.inBytes s.srcAddr.toNat s.srcLen.toNat) = some p →
    s.dstAddr.toNat + p.length > s.cfg.outSize.toNat → EndsInError s 3#4 (exec .decode s)) ∧
  (∀ s : State, s.srcAddr.toNat + s.srcLen.toNat ≤ s.cfg.inSize.toNat →
    decodeContainer (s.inBytes s.srcAddr.toNat s.srcLen.toNat) = none → ∃ t : State, exec .decode s = .next t ∧
      t.pass = false ∧ t.err = 0#4) ∧
  (∀ (s : State) (w : Word), s.pend = some w → (∀ i, decode w ≠ .ok i) → EndsInError s 1#4 (engineStep s))

/-- 60_exceptions.md R258: a command ends in exactly one of three ways, and it is precise: on an error none of its
writes to OUT, DATA and CRC_ACC takes place. -/
def Obligations.CommandEndsInOneOfThreeWays : Prop :=
  ∀ (i : Instr) (s : State), ∃ t : State, exec i s = .next t ∧
    t.busy = false ∧ t.done = true ∧ t.pend = none ∧
    ((t.pass = true ∧ t.err = 0#4) ∨
      (t.pass = false ∧ t.err = 0#4 ∧ i = .decode ∧ t.outLen = 0#32 ∧
        t.data = s.data ∧ t.crcAcc = s.crcAcc ∧ SameOut s t) ∨
      (t.pass = false ∧ t.err ∈ [1#4, 2#4, 3#4] ∧ t.outLen = 0#32 ∧
        t.data = s.data ∧ t.crcAcc = s.crcAcc ∧ SameOut s t))

/-- 30_encoding.md R115, 10_state.md R49, R50: the frame of the nine commands. None writes CTRL_IE, OVR, CMD,
SRC_ADDR, SRC_LEN, DST_ADDR, TYPE, IN, the configuration or the host's side; only CRC_COMPUTE and UNPACK32 write DATA;
only the four CRC commands write CRC_ACC; the five commands that write no OUT leave every byte of it. -/
def Obligations.CommandsKeepWhatTheyDoNotWrite : Prop :=
  ∀ (i : Instr) (s t : State), exec i s = .next t →
    CommandFrame s t ∧
    (i ∉ [Instr.crcCompute, .unpack32] → t.data = s.data) ∧
    (i ∉ [Instr.crcInit, .crcByte, .crcUpdate, .crcCompute] → t.crcAcc = s.crcAcc) ∧
    (i ∉ [Instr.pack32, .frameChunk, .encode, .decode] → SameOut s t ∧ t.outLen = 0#32)

/-- 30_encoding.md R115: what each command reads. Two states of one instance that agree on the operands the table
gives the command, whatever else they hold, end with the same verdict, OUT_LEN and, where it succeeds, the same
written CRC_ACC, DATA and OUT bytes. So no command reads OUT, CTRL_IE, CMD or another command's operands. -/
def Obligations.CommandsReadOnlyTheirOperands : Prop :=
  ∀ (i : Instr) (s s' t : State), exec i s = .next t → s'.cfg = s.cfg →
    (i ∈ [Instr.crcUpdate, .crcCompute, .unpack32, .frameChunk, .encode, .decode] →
      s'.srcAddr = s.srcAddr ∧ ∀ a, s'.inByte a = s.inByte a) →
    (i ∈ [Instr.crcUpdate, .crcCompute, .frameChunk, .encode, .decode] → s'.srcLen = s.srcLen) →
    (i ∈ [Instr.pack32, .frameChunk, .encode, .decode] → s'.dstAddr = s.dstAddr) →
    (i ∈ [Instr.crcByte, .crcUpdate] → s'.crcAcc = s.crcAcc) →
    (i = .crcByte → s'.data.extractLsb' 0 8 = s.data.extractLsb' 0 8) →
    (i = .pack32 → s'.data = s.data) → (i = .frameChunk → s'.typeTag = s.typeTag) →
    ∃ t' : State, exec i s' = .next t' ∧ t'.pass = t.pass ∧ t'.err = t.err ∧ t'.outLen = t.outLen ∧
      (t.err = 0#4 → i ∈ [Instr.crcInit, .crcByte, .crcUpdate, .crcCompute] → t'.crcAcc = t.crcAcc) ∧
      (t.err = 0#4 → i ∈ [Instr.crcCompute, .unpack32] → t'.data = t.data) ∧
      ∀ a, s.dstAddr.toNat ≤ a → a < s.dstAddr.toNat + t.outLen.toNat → t'.outByte a = t.outByte a

/-- 10_state.md R42, R55: PACK32, FRAME_CHUNK, ENCODE and DECODE write OUT at offsets DST_ADDR to DST_ADDR + OUT_LEN -
1 only; every other byte of OUT keeps its value. DST_ADDR is the operand as the command finds it. -/
def Obligations.OutputsStayInTheirRange : Prop :=
  ∀ (i : Instr) (s t : State), i ∈ [Instr.pack32, .frameChunk, .encode, .decode] → exec i s = .next t →
    ∀ a : Nat, (a < s.dstAddr.toNat ∨ s.dstAddr.toNat + t.outLen.toNat ≤ a) → t.outByte a = s.outByte a

/-! ### CRC-32, integers, chunks and containers -/

/-- 41_crc.md R144: the printed table holds crc_step(0, n) at each n, and the table-driven step is the bitwise step
for every accumulator and byte. -/
def Obligations.TableDrivenStepAgrees : Prop :=
  (∀ n : Byte, crcTableAt n = crcStep 0#32 n) ∧ crcTable.length = 256 ∧
  ∀ (acc : Word) (b : Byte), crcStep acc b = crcStepByTable acc b

/-- 41_crc.md R145: crc_step is linear over GF(2). -/
def Obligations.CrcStepIsLinear : Prop :=
  ∀ (a a' : Word) (b b' : Byte), crcStep (a ^^^ a') (b ^^^ b') = crcStep a b ^^^ crcStep a' b'

/-- 41_crc.md R145: the CRC detects every single-bit error. -/
def Obligations.CrcDetectsEverySingleBitError : Prop :=
  ∀ (s : List Byte) (i bit : Nat) (h : i < s.length), bit < 8 →
    crc32 (s.set i (s[i] ^^^ (1#8 <<< bit))) ≠ crc32 s

/-- 00_scope.md R16: the conversions between a register and four bytes are inverse to each other, and be32 is most
significant byte first. -/
def Obligations.BigEndianConversionsAreInverse : Prop :=
  (∀ v : Word, unbe32 (be32 v) = v ∧
    be32 v = [v.extractLsb' 24 8, v.extractLsb' 16 8, v.extractLsb' 8 8, v.extractLsb' 0 8]) ∧
  (∀ s : List Byte, s.length = 4 → be32 (unbe32 s) = s)

/-- 42_pack.md R172: the round-trip law of the packer, both ways, through a host copy of the four bytes. -/
def Obligations.PackThenUnpackReturnsData : Prop :=
  (∀ s t u v : State, s.dstFits 4 → exec .pack32 s = .next t → u.srcFits 4 →
    (∀ k < 4, u.inByte (u.srcAddr.toNat + k) = t.outByte (s.dstAddr.toNat + k)) →
    exec .unpack32 u = .next v → v.data = s.data) ∧
  (∀ s t u v : State, s.srcFits 4 → exec .unpack32 s = .next t → u.data = t.data → u.dstFits 4 →
    exec .pack32 u = .next v →
    ∀ k < 4, v.outByte (u.dstAddr.toNat + k) = s.inByte (s.srcAddr.toNat + k))

/-- 43_framer.md R190, R191, R192: a chunk is length, type, data and checksum back to back, 12 + n bytes; the length
counts the data alone, and the checksum is over type and data, not over the length, big-endian. -/
def Obligations.ChunkLayout : Prop :=
  ∀ t d : List Byte, t.length = 4 → d.length < 2 ^ 32 →
    (chunk t d).length = 12 + d.length ∧
    (unbe32 (subseq (chunk t d) 0 4)).toNat = d.length ∧
    subseq (chunk t d) 4 8 = t ∧
    subseq (chunk t d) 8 (8 + d.length) = d ∧
    subseq (chunk t d) (8 + d.length) (12 + d.length) = be32 (crc32 (t ++ d))

/-- 44_container.md R210 to R214: a container is the signature, the 25 constant bytes of the header-chunk, the
data-chunk of the payload, and the 12 constant bytes of the end-chunk; 57 + len(p) bytes in all. -/
def Obligations.ContainerLayout : Prop :=
  ∀ p : List Byte,
    (encodeContainer p).length = 57 + p.length ∧
    (encodeContainer p).take 33 =
      [0x89#8, 0x50#8, 0x4E#8, 0x47#8, 0x0D#8, 0x0A#8, 0x1A#8, 0x0A#8,
       0x00#8, 0x00#8, 0x00#8, 0x0D#8, 0x49#8, 0x48#8, 0x44#8, 0x52#8,
       0x00#8, 0x00#8, 0x00#8, 0x01#8, 0x00#8, 0x00#8, 0x00#8, 0x01#8, 0x08#8, 0x06#8, 0x00#8, 0x00#8, 0x00#8,
       0x1F#8, 0x15#8, 0xC4#8, 0x89#8] ∧
    subseq (encodeContainer p) 33 (45 + p.length) =
      be32 (BitVec.ofNat 32 p.length) ++ tagIDAT ++ p ++ be32 (crc32 (tagIDAT ++ p)) ∧
    (encodeContainer p).drop (45 + p.length) =
      [0x00#8, 0x00#8, 0x00#8, 0x00#8, 0x49#8, 0x45#8, 0x4E#8, 0x44#8, 0xAE#8, 0x42#8, 0x60#8, 0x82#8]

/-- 44_container.md R228, R235: for every payload the format can hold, the empty one too, decode(encode(p)) = p. -/
def Obligations.DecodeContainerInvertsEncodeContainer : Prop :=
  ∀ p : List Byte, p.length < 2 ^ 32 → decodeContainer (encodeContainer p) = some p

/-- 44_container.md R228, in hardware: ENCODE, a host copy of OUT[DST_ADDR..+OUT_LEN) to IN, and a DECODE of those
bytes give PASS = 1 and the payload in OUT, provided both buffers are large enough. -/
def Obligations.EncodeCopyDecodeReturnsThePayload : Prop :=
  ∀ s t u : State, s.srcFits s.srcLen.toNat → s.dstFits (57 + s.srcLen.toNat) → exec .encode s = .next t →
    u.srcLen = t.outLen → u.srcFits u.srcLen.toNat → u.dstFits s.srcLen.toNat →
    (∀ k < t.outLen.toNat, u.inByte (u.srcAddr.toNat + k) = t.outByte (s.dstAddr.toNat + k)) →
    ∃ v : State, exec .decode u = .next v ∧ v.pass = true ∧ v.err = 0#4 ∧ v.outLen = s.srcLen ∧
      ∀ k < s.srcLen.toNat, v.outByte (u.dstAddr.toNat + k) = s.inByte (s.srcAddr.toNat + k)

/-- 44_container.md R229: a buffer whose first 8 bytes differ from the signature does not decode, whatever follows. -/
def Obligations.SignatureGate : Prop :=
  ∀ c : List Byte, subseq c 0 8 ≠ [0x89#8, 0x50#8, 0x4E#8, 0x47#8, 0x0D#8, 0x0A#8, 0x1A#8, 0x0A#8] →
    decodeContainer c = none

/-- 44_container.md R218, R230: the header-chunk's type, data and checksum, its length field kept, have no effect on
the result, pass or failure. -/
def Obligations.HeaderContentIsIrrelevant : Prop :=
  ∀ lenField t t' d d' ck ck' rest : List Byte, lenField.length = 4 → t.length = 4 → t'.length = 4 →
    ck.length = 4 → ck'.length = 4 → d.length = (unbe32 lenField).toNat → d'.length = d.length →
    decodeContainer (sig ++ lenField ++ t ++ d ++ ck ++ rest) =
      decodeContainer (sig ++ lenField ++ t' ++ d' ++ ck' ++ rest)

/-- 44_container.md R219, R223, R224, R225: any header-chunk and any data-chunk, of whatever 4-byte tags and data,
then any bytes: the data-chunk's data is the result. The data-chunk's type is not compared with IDAT. -/
def Obligations.AnyTagsDecode : Prop :=
  ∀ th dh t p rest : List Byte, th.length = 4 → t.length = 4 → dh.length < 2 ^ 32 → p.length < 2 ^ 32 →
    decodeContainer (sig ++ chunk th dh ++ chunk t p ++ rest) = some p

/-- 44_container.md R222, R233: of a container that decodes, everything after the data-chunk's checksum may be removed
or replaced. -/
def Obligations.BytesAfterTheDataChunkAreIrrelevant : Prop :=
  ∀ c p extra : List Byte, decodeContainer c = some p →
    decodeContainer (c.take (32 + (unbe32 (subseq c 8 12)).toNat + p.length) ++ extra) = some p

/-- 44_container.md R218, R219, R226 (b): of a container that decodes, every prefix that ends before the data-chunk's
checksum does fails, as truncated. -/
def Obligations.TruncatedContainerFails : Prop :=
  ∀ (c p : List Byte) (m : Nat), decodeContainer c = some p →
    m < 32 + (unbe32 (subseq c 8 12)).toNat + p.length → decodeContainer (c.take m) = none

/-- 44_container.md R232: in a container that decodes, flipping any single bit in the data-chunk's payload or in its
stored checksum makes the decode fail. -/
def Obligations.FlippedPayloadOrChecksumBitFails : Prop :=
  ∀ (box p : List Byte) (k bit : Nat) (h : k < box.length), decodeContainer box = some p → bit < 8 →
    28 + (unbe32 (subseq box 8 12)).toNat ≤ k → k < 32 + (unbe32 (subseq box 8 12)).toNat + p.length →
    decodeContainer (box.set k (box[k] ^^^ (1#8 <<< bit))) = none
end

