-- ==== Sys2Proof/Laws/Bytes.lean ====
section
/-! SUPPORT. The lengths of the byte sequences the commands build, and the plain laws of subsequences. -/

namespace Sys2Proof.Machine

@[simp] theorem be32_length (v : Word) : (be32 v).length = 4 := rfl

@[simp] theorem chunk_length (t d : List Byte) : (chunk t d).length = 4 + t.length + d.length + 4 := by
  simp [chunk]; omega

@[simp] theorem sig_length : sig.length = 8 := rfl

@[simp] theorem tagIHDR_length : tagIHDR.length = 4 := rfl

@[simp] theorem tagIDAT_length : tagIDAT.length = 4 := rfl

@[simp] theorem tagIEND_length : tagIEND.length = 4 := rfl

@[simp] theorem hdr13_length : hdr13.length = 13 := rfl

@[simp] theorem encodeContainer_length (p : List Byte) : (encodeContainer p).length = 57 + p.length := by
  simp [encodeContainer]; omega

@[simp] theorem State.tag_length (s : State) : s.tag.length = 4 := rfl

theorem subseq_length (s : List Byte) {i j : Nat} (h : j ≤ s.length) : (subseq s i j).length = j - i := by
  simp [subseq]; omega

/-- The subsequence that skips a first part and takes the whole second part. -/
theorem subseq_middle (a b c : List Byte) {i j : Nat} (hi : i = a.length) (hj : j = a.length + b.length) :
    subseq (a ++ b ++ c) i j = b := by
  subst hi hj
  simp [subseq, List.append_assoc]

@[simp] theorem crcFold_nil (acc : Word) : crcFold acc [] = acc := rfl

@[simp] theorem crcFold_cons (acc : Word) (b : Byte) (rest : List Byte) :
    crcFold acc (b :: rest) = crcFold (crcStep acc b) rest := rfl

end Sys2Proof.Machine
end

