-- ==== Sys2Proof/Laws/Memory.lean ====
section
/-! SUPPORT. The laws of a buffer's contents: a read after a write, and that every operation keeps the canonical form
and the bound. -/

namespace Sys2Proof.Machine

@[simp] theorem Memory.read_nil (a : Nat) : Memory.read [] a = none := rfl

theorem Memory.read_write_same (m : Memory) (a : Nat) (v : Byte) : (m.write a v).read a = some v := by
  induction m with
  | nil => simp [Memory.write, Memory.read]
  | cons c rest ih =>
    obtain ⟨b, w⟩ := c
    simp only [Memory.write]
    split
    · simp [Memory.read]
    · split
      · simp [Memory.read]
      · rename_i h1 h2; simp [Memory.read, ih, h2]

theorem Memory.read_write_other (m : Memory) {a b : Nat} (v : Byte) (h : b ≠ a) :
    (m.write a v).read b = m.read b := by
  induction m with
  | nil => simp [Memory.write, Memory.read, h]
  | cons c rest ih =>
    obtain ⟨d, w⟩ := c
    simp only [Memory.write]
    split
    · simp [Memory.read, h]
    · split
      · subst_vars; simp [Memory.read, h]
      · simp [Memory.read, ih]

theorem Memory.mem_write {m : Memory} {a : Nat} {v : Byte} {c : Host.Cell} (h : c ∈ m.write a v) :
    c = (a, v) ∨ c ∈ m := by
  induction m with
  | nil => simpa [Memory.write] using h
  | cons d rest ih =>
    obtain ⟨b, w⟩ := d
    simp only [Memory.write] at h
    split at h
    · simpa using h
    · split at h
      · simp only [List.mem_cons] at h ⊢; tauto
      · simp only [List.mem_cons] at h ⊢
        rcases h with h | h
        · exact .inr (.inl h)
        · rcases ih h with h | h <;> tauto

theorem Memory.write_wf {m : Memory} (a : Nat) (v : Byte) (h : m.wf) : (m.write a v).wf := by
  induction m with
  | nil => simp [Memory.write, Memory.wf]
  | cons d rest ih =>
    obtain ⟨b, w⟩ := d
    obtain ⟨hb, hr⟩ := List.pairwise_cons.mp h
    simp only [Memory.write]
    split
    · refine List.pairwise_cons.mpr ⟨fun c hc => ?_, h⟩
      rcases List.mem_cons.mp hc with rfl | hc
      · assumption
      · have := hb c hc; simp only at *; omega
    · split
      · subst_vars; exact List.pairwise_cons.mpr ⟨hb, hr⟩
      · refine List.pairwise_cons.mpr ⟨fun c hc => ?_, ih hr⟩
        rcases Memory.mem_write hc with rfl | hc
        · simp only; omega
        · exact hb c hc

theorem Memory.write_within {size : Nat} {m : Memory} {a : Nat} (v : Byte) (ha : a < size) (h : m.within size) :
    (m.write a v).within size := fun c hc => by
  rcases Memory.mem_write hc with rfl | hc
  · exact ha
  · exact h c hc

theorem Memory.read_writeBytes (m : Memory) (a : Nat) (bytes : List Byte) (b : Nat) :
    (m.writeBytes a bytes).read b = if a ≤ b ∧ b < a + bytes.length then bytes[b - a]? else m.read b := by
  induction bytes generalizing m a with
  | nil => rw [if_neg (by simp)]; rfl
  | cons v rest ih =>
    simp only [Memory.writeBytes, ih, List.length_cons]
    rcases Nat.lt_trichotomy b a with h | rfl | h
    · rw [if_neg (by omega), if_neg (by omega), Memory.read_write_other _ _ (by omega)]
    · rw [if_neg (by omega), if_pos (by omega), Memory.read_write_same]; simp
    · have e : b - a = (b - (a + 1)) + 1 := by omega
      by_cases hb : b < a + 1 + rest.length
      · rw [if_pos ⟨by omega, hb⟩, if_pos (by omega), e, List.getElem?_cons_succ]
      · rw [if_neg (by omega), if_neg (by omega), Memory.read_write_other _ _ (by omega)]

theorem Memory.writeBytes_wf {m : Memory} (a : Nat) (bytes : List Byte) (h : m.wf) : (m.writeBytes a bytes).wf := by
  induction bytes generalizing m a with
  | nil => exact h
  | cons v rest ih => exact ih _ (Memory.write_wf a v h)

theorem Memory.writeBytes_within {size : Nat} {m : Memory} {a : Nat} {bytes : List Byte}
    (ha : a + bytes.length ≤ size) (h : m.within size) : (m.writeBytes a bytes).within size := by
  induction bytes generalizing m a with
  | nil => exact h
  | cons v rest ih =>
    simp only [List.length_cons] at ha
    exact ih (by omega) (Memory.write_within v (by omega) h)

theorem Memory.below_wf {m : Memory} (bound : Nat) (h : m.wf) : (m.below bound).wf := List.Pairwise.filter _ h

theorem Memory.below_within {size : Nat} {m : Memory} (bound : Nat) (h : m.within size) :
    (m.below bound).within size := fun c hc => h c (List.mem_of_mem_filter hc)

theorem Memory.read_below (m : Memory) (bound a : Nat) :
    (m.below bound).read a = if a < bound then m.read a else none := by
  induction m with
  | nil => simp [Memory.below]
  | cons c rest ih =>
    obtain ⟨b, v⟩ := c
    simp only [Memory.below, List.filter_cons, decide_eq_true_eq] at ih ⊢
    by_cases hb : b < bound
    · simp only [hb, if_true, Memory.read, ih]; grind
    · simp only [hb, if_false, ih, Memory.read]; grind

end Sys2Proof.Machine
end

