-- ==== Sys2Proof/Laws/State.lean ====
section
/-! SUPPORT. One lemma per field for each operation that updates the state, so that no proof unfolds a record update. -/

namespace Sys2Proof.Machine

/-! ### `issue` -/

@[simp] theorem issue_ctrlIE (w : Word) (s : State) : (issue w s).ctrlIE = s.ctrlIE := rfl
@[simp] theorem issue_busy (w : Word) (s : State) : (issue w s).busy = true := rfl
@[simp] theorem issue_done (w : Word) (s : State) : (issue w s).done = false := rfl
@[simp] theorem issue_pass (w : Word) (s : State) : (issue w s).pass = false := rfl
@[simp] theorem issue_ovr (w : Word) (s : State) : (issue w s).ovr = s.ovr := rfl
@[simp] theorem issue_err (w : Word) (s : State) : (issue w s).err = 0#4 := rfl
@[simp] theorem issue_cmd (w : Word) (s : State) : (issue w s).cmd = w := rfl
@[simp] theorem issue_srcAddr (w : Word) (s : State) : (issue w s).srcAddr = s.srcAddr := rfl
@[simp] theorem issue_srcLen (w : Word) (s : State) : (issue w s).srcLen = s.srcLen := rfl
@[simp] theorem issue_dstAddr (w : Word) (s : State) : (issue w s).dstAddr = s.dstAddr := rfl
@[simp] theorem issue_outLen (w : Word) (s : State) : (issue w s).outLen = s.outLen := rfl
@[simp] theorem issue_data (w : Word) (s : State) : (issue w s).data = s.data := rfl
@[simp] theorem issue_typeTag (w : Word) (s : State) : (issue w s).typeTag = s.typeTag := rfl
@[simp] theorem issue_crcAcc (w : Word) (s : State) : (issue w s).crcAcc = s.crcAcc := rfl
@[simp] theorem issue_pend (w : Word) (s : State) : (issue w s).pend = some w := rfl
@[simp] theorem issue_inBuf (w : Word) (s : State) : (issue w s).inBuf = s.inBuf := rfl
@[simp] theorem issue_outBuf (w : Word) (s : State) : (issue w s).outBuf = s.outBuf := rfl
@[simp] theorem issue_cfg (w : Word) (s : State) : (issue w s).cfg = s.cfg := rfl
@[simp] theorem issue_draws (w : Word) (s : State) : (issue w s).draws = s.draws := rfl
@[simp] theorem issue_inDraw (w : Word) (s : State) : (issue w s).inDraw = s.inDraw := rfl
@[simp] theorem issue_outDraw (w : Word) (s : State) : (issue w s).outDraw = s.outDraw := rfl
@[simp] theorem issue_outAborts (w : Word) (s : State) : (issue w s).outAborts = s.outAborts := rfl
@[simp] theorem issue_schedule (w : Word) (s : State) : (issue w s).schedule = s.schedule := rfl
@[simp] theorem issue_answers (w : Word) (s : State) : (issue w s).answers = s.answers := rfl
@[simp] theorem issue_busErrors (w : Word) (s : State) : (issue w s).busErrors = s.busErrors := rfl

@[simp] theorem issue_inByte (w : Word) (s : State) (a : Nat) : (issue w s).inByte a = s.inByte a := rfl
@[simp] theorem issue_outByte (w : Word) (s : State) (a : Nat) : (issue w s).outByte a = s.outByte a := rfl

/-! ### `complete` -/

@[simp] theorem complete_ctrlIE (p : Bool) (n : Nat) (s : State) : (complete p n s).ctrlIE = s.ctrlIE := rfl
@[simp] theorem complete_busy (p : Bool) (n : Nat) (s : State) : (complete p n s).busy = false := rfl
@[simp] theorem complete_done (p : Bool) (n : Nat) (s : State) : (complete p n s).done = true := rfl
@[simp] theorem complete_pass (p : Bool) (n : Nat) (s : State) : (complete p n s).pass = p := rfl
@[simp] theorem complete_ovr (p : Bool) (n : Nat) (s : State) : (complete p n s).ovr = s.ovr := rfl
@[simp] theorem complete_err (p : Bool) (n : Nat) (s : State) : (complete p n s).err = 0#4 := rfl
@[simp] theorem complete_cmd (p : Bool) (n : Nat) (s : State) : (complete p n s).cmd = s.cmd := rfl
@[simp] theorem complete_srcAddr (p : Bool) (n : Nat) (s : State) : (complete p n s).srcAddr = s.srcAddr := rfl
@[simp] theorem complete_srcLen (p : Bool) (n : Nat) (s : State) : (complete p n s).srcLen = s.srcLen := rfl
@[simp] theorem complete_dstAddr (p : Bool) (n : Nat) (s : State) : (complete p n s).dstAddr = s.dstAddr := rfl
@[simp] theorem complete_outLen (p : Bool) (n : Nat) (s : State) : (complete p n s).outLen = BitVec.ofNat 32 n := rfl
@[simp] theorem complete_data (p : Bool) (n : Nat) (s : State) : (complete p n s).data = s.data := rfl
@[simp] theorem complete_typeTag (p : Bool) (n : Nat) (s : State) : (complete p n s).typeTag = s.typeTag := rfl
@[simp] theorem complete_crcAcc (p : Bool) (n : Nat) (s : State) : (complete p n s).crcAcc = s.crcAcc := rfl
@[simp] theorem complete_pend (p : Bool) (n : Nat) (s : State) : (complete p n s).pend = none := rfl
@[simp] theorem complete_inBuf (p : Bool) (n : Nat) (s : State) : (complete p n s).inBuf = s.inBuf := rfl
@[simp] theorem complete_outBuf (p : Bool) (n : Nat) (s : State) : (complete p n s).outBuf = s.outBuf := rfl
@[simp] theorem complete_cfg (p : Bool) (n : Nat) (s : State) : (complete p n s).cfg = s.cfg := rfl
@[simp] theorem complete_draws (p : Bool) (n : Nat) (s : State) : (complete p n s).draws = s.draws := rfl
@[simp] theorem complete_inDraw (p : Bool) (n : Nat) (s : State) : (complete p n s).inDraw = s.inDraw := rfl
@[simp] theorem complete_outDraw (p : Bool) (n : Nat) (s : State) : (complete p n s).outDraw = s.outDraw := rfl
@[simp] theorem complete_outAborts (p : Bool) (n : Nat) (s : State) : (complete p n s).outAborts = s.outAborts := rfl
@[simp] theorem complete_schedule (p : Bool) (n : Nat) (s : State) : (complete p n s).schedule = s.schedule := rfl
@[simp] theorem complete_answers (p : Bool) (n : Nat) (s : State) : (complete p n s).answers = s.answers := rfl
@[simp] theorem complete_busErrors (p : Bool) (n : Nat) (s : State) : (complete p n s).busErrors = s.busErrors := rfl

@[simp] theorem complete_inByte (p : Bool) (n : Nat) (s : State) (a : Nat) : (complete p n s).inByte a = s.inByte a := rfl
@[simp] theorem complete_outByte (p : Bool) (n : Nat) (s : State) (a : Nat) : (complete p n s).outByte a = s.outByte a := rfl

/-! ### `raiseError` -/

@[simp] theorem raiseError_ctrlIE (e : CmdError) (s : State) : (raiseError e s).ctrlIE = s.ctrlIE := rfl
@[simp] theorem raiseError_busy (e : CmdError) (s : State) : (raiseError e s).busy = false := rfl
@[simp] theorem raiseError_done (e : CmdError) (s : State) : (raiseError e s).done = true := rfl
@[simp] theorem raiseError_pass (e : CmdError) (s : State) : (raiseError e s).pass = false := rfl
@[simp] theorem raiseError_ovr (e : CmdError) (s : State) : (raiseError e s).ovr = s.ovr := rfl
@[simp] theorem raiseError_err (e : CmdError) (s : State) : (raiseError e s).err = e.code := rfl
@[simp] theorem raiseError_cmd (e : CmdError) (s : State) : (raiseError e s).cmd = s.cmd := rfl
@[simp] theorem raiseError_srcAddr (e : CmdError) (s : State) : (raiseError e s).srcAddr = s.srcAddr := rfl
@[simp] theorem raiseError_srcLen (e : CmdError) (s : State) : (raiseError e s).srcLen = s.srcLen := rfl
@[simp] theorem raiseError_dstAddr (e : CmdError) (s : State) : (raiseError e s).dstAddr = s.dstAddr := rfl
@[simp] theorem raiseError_outLen (e : CmdError) (s : State) : (raiseError e s).outLen = 0#32 := rfl
@[simp] theorem raiseError_data (e : CmdError) (s : State) : (raiseError e s).data = s.data := rfl
@[simp] theorem raiseError_typeTag (e : CmdError) (s : State) : (raiseError e s).typeTag = s.typeTag := rfl
@[simp] theorem raiseError_crcAcc (e : CmdError) (s : State) : (raiseError e s).crcAcc = s.crcAcc := rfl
@[simp] theorem raiseError_pend (e : CmdError) (s : State) : (raiseError e s).pend = none := rfl
@[simp] theorem raiseError_inBuf (e : CmdError) (s : State) : (raiseError e s).inBuf = s.inBuf := rfl
@[simp] theorem raiseError_outBuf (e : CmdError) (s : State) : (raiseError e s).outBuf = s.outBuf := rfl
@[simp] theorem raiseError_cfg (e : CmdError) (s : State) : (raiseError e s).cfg = s.cfg := rfl
@[simp] theorem raiseError_draws (e : CmdError) (s : State) : (raiseError e s).draws = s.draws := rfl
@[simp] theorem raiseError_inDraw (e : CmdError) (s : State) : (raiseError e s).inDraw = s.inDraw := rfl
@[simp] theorem raiseError_outDraw (e : CmdError) (s : State) : (raiseError e s).outDraw = s.outDraw := rfl
@[simp] theorem raiseError_outAborts (e : CmdError) (s : State) : (raiseError e s).outAborts = s.outAborts := rfl
@[simp] theorem raiseError_schedule (e : CmdError) (s : State) : (raiseError e s).schedule = s.schedule := rfl
@[simp] theorem raiseError_answers (e : CmdError) (s : State) : (raiseError e s).answers = s.answers := rfl
@[simp] theorem raiseError_busErrors (e : CmdError) (s : State) : (raiseError e s).busErrors = s.busErrors := rfl

@[simp] theorem raiseError_inByte (e : CmdError) (s : State) (a : Nat) : (raiseError e s).inByte a = s.inByte a := rfl
@[simp] theorem raiseError_outByte (e : CmdError) (s : State) (a : Nat) : (raiseError e s).outByte a = s.outByte a := rfl

/-! ### `resetRegisters` -/

@[simp] theorem resetRegisters_ctrlIE (s : State) : (resetRegisters s).ctrlIE = false := rfl
@[simp] theorem resetRegisters_busy (s : State) : (resetRegisters s).busy = false := rfl
@[simp] theorem resetRegisters_done (s : State) : (resetRegisters s).done = false := rfl
@[simp] theorem resetRegisters_pass (s : State) : (resetRegisters s).pass = false := rfl
@[simp] theorem resetRegisters_ovr (s : State) : (resetRegisters s).ovr = false := rfl
@[simp] theorem resetRegisters_err (s : State) : (resetRegisters s).err = 0#4 := rfl
@[simp] theorem resetRegisters_cmd (s : State) : (resetRegisters s).cmd = 0#32 := rfl
@[simp] theorem resetRegisters_srcAddr (s : State) : (resetRegisters s).srcAddr = 0#32 := rfl
@[simp] theorem resetRegisters_srcLen (s : State) : (resetRegisters s).srcLen = 0#32 := rfl
@[simp] theorem resetRegisters_dstAddr (s : State) : (resetRegisters s).dstAddr = 0#32 := rfl
@[simp] theorem resetRegisters_outLen (s : State) : (resetRegisters s).outLen = 0#32 := rfl
@[simp] theorem resetRegisters_data (s : State) : (resetRegisters s).data = 0#32 := rfl
@[simp] theorem resetRegisters_typeTag (s : State) : (resetRegisters s).typeTag = 0#32 := rfl
@[simp] theorem resetRegisters_crcAcc (s : State) : (resetRegisters s).crcAcc = 0xFFFFFFFF#32 := rfl
@[simp] theorem resetRegisters_pend (s : State) : (resetRegisters s).pend = none := rfl
@[simp] theorem resetRegisters_inBuf (s : State) : (resetRegisters s).inBuf = s.inBuf := rfl
@[simp] theorem resetRegisters_outBuf (s : State) : (resetRegisters s).outBuf = s.outBuf := rfl
@[simp] theorem resetRegisters_cfg (s : State) : (resetRegisters s).cfg = s.cfg := rfl
@[simp] theorem resetRegisters_draws (s : State) : (resetRegisters s).draws = s.draws := rfl
@[simp] theorem resetRegisters_inDraw (s : State) : (resetRegisters s).inDraw = s.inDraw := rfl
@[simp] theorem resetRegisters_outDraw (s : State) : (resetRegisters s).outDraw = s.outDraw := rfl
@[simp] theorem resetRegisters_outAborts (s : State) : (resetRegisters s).outAborts = s.outAborts := rfl
@[simp] theorem resetRegisters_schedule (s : State) : (resetRegisters s).schedule = s.schedule := rfl
@[simp] theorem resetRegisters_answers (s : State) : (resetRegisters s).answers = s.answers := rfl
@[simp] theorem resetRegisters_busErrors (s : State) : (resetRegisters s).busErrors = s.busErrors := rfl

@[simp] theorem resetRegisters_inByte (s : State) (a : Nat) : (resetRegisters s).inByte a = s.inByte a := rfl
@[simp] theorem resetRegisters_outByte (s : State) (a : Nat) : (resetRegisters s).outByte a = s.outByte a := rfl

/-! ### `hardReset` -/

@[simp] theorem hardReset_ctrlIE (s : State) : (hardReset s).ctrlIE = false := rfl
@[simp] theorem hardReset_busy (s : State) : (hardReset s).busy = false := rfl
@[simp] theorem hardReset_done (s : State) : (hardReset s).done = false := rfl
@[simp] theorem hardReset_pass (s : State) : (hardReset s).pass = false := rfl
@[simp] theorem hardReset_ovr (s : State) : (hardReset s).ovr = false := rfl
@[simp] theorem hardReset_err (s : State) : (hardReset s).err = 0#4 := rfl
@[simp] theorem hardReset_cmd (s : State) : (hardReset s).cmd = 0#32 := rfl
@[simp] theorem hardReset_srcAddr (s : State) : (hardReset s).srcAddr = 0#32 := rfl
@[simp] theorem hardReset_srcLen (s : State) : (hardReset s).srcLen = 0#32 := rfl
@[simp] theorem hardReset_dstAddr (s : State) : (hardReset s).dstAddr = 0#32 := rfl
@[simp] theorem hardReset_outLen (s : State) : (hardReset s).outLen = 0#32 := rfl
@[simp] theorem hardReset_data (s : State) : (hardReset s).data = 0#32 := rfl
@[simp] theorem hardReset_typeTag (s : State) : (hardReset s).typeTag = 0#32 := rfl
@[simp] theorem hardReset_crcAcc (s : State) : (hardReset s).crcAcc = 0xFFFFFFFF#32 := rfl
@[simp] theorem hardReset_pend (s : State) : (hardReset s).pend = none := rfl
@[simp] theorem hardReset_inBuf (s : State) : (hardReset s).inBuf = [] := rfl
@[simp] theorem hardReset_outBuf (s : State) : (hardReset s).outBuf = [] := rfl
@[simp] theorem hardReset_cfg (s : State) : (hardReset s).cfg = s.cfg := rfl
@[simp] theorem hardReset_draws (s : State) : (hardReset s).draws = s.draws + 1 := rfl
@[simp] theorem hardReset_inDraw (s : State) : (hardReset s).inDraw = s.draws := rfl
@[simp] theorem hardReset_outDraw (s : State) : (hardReset s).outDraw = s.draws := rfl
@[simp] theorem hardReset_outAborts (s : State) : (hardReset s).outAborts = [] := rfl
@[simp] theorem hardReset_schedule (s : State) : (hardReset s).schedule = s.schedule := rfl
@[simp] theorem hardReset_answers (s : State) : (hardReset s).answers = s.answers := rfl
@[simp] theorem hardReset_busErrors (s : State) : (hardReset s).busErrors = s.busErrors := rfl

/-! ### `answer` -/

@[simp] theorem answer_ctrlIE (x : Answer) (s : State) : (answer x s).ctrlIE = s.ctrlIE := rfl
@[simp] theorem answer_busy (x : Answer) (s : State) : (answer x s).busy = s.busy := rfl
@[simp] theorem answer_done (x : Answer) (s : State) : (answer x s).done = s.done := rfl
@[simp] theorem answer_pass (x : Answer) (s : State) : (answer x s).pass = s.pass := rfl
@[simp] theorem answer_ovr (x : Answer) (s : State) : (answer x s).ovr = s.ovr := rfl
@[simp] theorem answer_err (x : Answer) (s : State) : (answer x s).err = s.err := rfl
@[simp] theorem answer_cmd (x : Answer) (s : State) : (answer x s).cmd = s.cmd := rfl
@[simp] theorem answer_srcAddr (x : Answer) (s : State) : (answer x s).srcAddr = s.srcAddr := rfl
@[simp] theorem answer_srcLen (x : Answer) (s : State) : (answer x s).srcLen = s.srcLen := rfl
@[simp] theorem answer_dstAddr (x : Answer) (s : State) : (answer x s).dstAddr = s.dstAddr := rfl
@[simp] theorem answer_outLen (x : Answer) (s : State) : (answer x s).outLen = s.outLen := rfl
@[simp] theorem answer_data (x : Answer) (s : State) : (answer x s).data = s.data := rfl
@[simp] theorem answer_typeTag (x : Answer) (s : State) : (answer x s).typeTag = s.typeTag := rfl
@[simp] theorem answer_crcAcc (x : Answer) (s : State) : (answer x s).crcAcc = s.crcAcc := rfl
@[simp] theorem answer_pend (x : Answer) (s : State) : (answer x s).pend = s.pend := rfl
@[simp] theorem answer_inBuf (x : Answer) (s : State) : (answer x s).inBuf = s.inBuf := rfl
@[simp] theorem answer_outBuf (x : Answer) (s : State) : (answer x s).outBuf = s.outBuf := rfl
@[simp] theorem answer_cfg (x : Answer) (s : State) : (answer x s).cfg = s.cfg := rfl
@[simp] theorem answer_draws (x : Answer) (s : State) : (answer x s).draws = s.draws := rfl
@[simp] theorem answer_inDraw (x : Answer) (s : State) : (answer x s).inDraw = s.inDraw := rfl
@[simp] theorem answer_outDraw (x : Answer) (s : State) : (answer x s).outDraw = s.outDraw := rfl
@[simp] theorem answer_outAborts (x : Answer) (s : State) : (answer x s).outAborts = s.outAborts := rfl
@[simp] theorem answer_schedule (x : Answer) (s : State) : (answer x s).schedule = s.schedule := rfl
@[simp] theorem answer_answers (x : Answer) (s : State) : (answer x s).answers = x :: s.answers := rfl
@[simp] theorem answer_busErrors (x : Answer) (s : State) : (answer x s).busErrors = s.busErrors := rfl

@[simp] theorem answer_inByte (x : Answer) (s : State) (a : Nat) : (answer x s).inByte a = s.inByte a := rfl
@[simp] theorem answer_outByte (x : Answer) (s : State) (a : Nat) : (answer x s).outByte a = s.outByte a := rfl

/-! ### `busError` -/

@[simp] theorem busError_ctrlIE (x : Access) (s : State) : (busError x s).ctrlIE = s.ctrlIE := rfl
@[simp] theorem busError_busy (x : Access) (s : State) : (busError x s).busy = s.busy := rfl
@[simp] theorem busError_done (x : Access) (s : State) : (busError x s).done = s.done := rfl
@[simp] theorem busError_pass (x : Access) (s : State) : (busError x s).pass = s.pass := rfl
@[simp] theorem busError_ovr (x : Access) (s : State) : (busError x s).ovr = s.ovr := rfl
@[simp] theorem busError_err (x : Access) (s : State) : (busError x s).err = s.err := rfl
@[simp] theorem busError_cmd (x : Access) (s : State) : (busError x s).cmd = s.cmd := rfl
@[simp] theorem busError_srcAddr (x : Access) (s : State) : (busError x s).srcAddr = s.srcAddr := rfl
@[simp] theorem busError_srcLen (x : Access) (s : State) : (busError x s).srcLen = s.srcLen := rfl
@[simp] theorem busError_dstAddr (x : Access) (s : State) : (busError x s).dstAddr = s.dstAddr := rfl
@[simp] theorem busError_outLen (x : Access) (s : State) : (busError x s).outLen = s.outLen := rfl
@[simp] theorem busError_data (x : Access) (s : State) : (busError x s).data = s.data := rfl
@[simp] theorem busError_typeTag (x : Access) (s : State) : (busError x s).typeTag = s.typeTag := rfl
@[simp] theorem busError_crcAcc (x : Access) (s : State) : (busError x s).crcAcc = s.crcAcc := rfl
@[simp] theorem busError_pend (x : Access) (s : State) : (busError x s).pend = s.pend := rfl
@[simp] theorem busError_inBuf (x : Access) (s : State) : (busError x s).inBuf = s.inBuf := rfl
@[simp] theorem busError_outBuf (x : Access) (s : State) : (busError x s).outBuf = s.outBuf := rfl
@[simp] theorem busError_cfg (x : Access) (s : State) : (busError x s).cfg = s.cfg := rfl
@[simp] theorem busError_draws (x : Access) (s : State) : (busError x s).draws = s.draws := rfl
@[simp] theorem busError_inDraw (x : Access) (s : State) : (busError x s).inDraw = s.inDraw := rfl
@[simp] theorem busError_outDraw (x : Access) (s : State) : (busError x s).outDraw = s.outDraw := rfl
@[simp] theorem busError_outAborts (x : Access) (s : State) : (busError x s).outAborts = s.outAborts := rfl
@[simp] theorem busError_schedule (x : Access) (s : State) : (busError x s).schedule = s.schedule := rfl
@[simp] theorem busError_answers (x : Access) (s : State) : (busError x s).answers = .busError :: s.answers := rfl
@[simp] theorem busError_busErrors (x : Access) (s : State) : (busError x s).busErrors = x :: s.busErrors := rfl

@[simp] theorem busError_inByte (x : Access) (s : State) (a : Nat) : (busError x s).inByte a = s.inByte a := rfl
@[simp] theorem busError_outByte (x : Access) (s : State) (a : Nat) : (busError x s).outByte a = s.outByte a := rfl

/-! ### `dropWrite` -/

@[simp] theorem dropWrite_ctrlIE (s : State) : (dropWrite s).ctrlIE = s.ctrlIE := rfl
@[simp] theorem dropWrite_busy (s : State) : (dropWrite s).busy = s.busy := rfl
@[simp] theorem dropWrite_done (s : State) : (dropWrite s).done = s.done := rfl
@[simp] theorem dropWrite_pass (s : State) : (dropWrite s).pass = s.pass := rfl
@[simp] theorem dropWrite_ovr (s : State) : (dropWrite s).ovr = true := rfl
@[simp] theorem dropWrite_err (s : State) : (dropWrite s).err = s.err := rfl
@[simp] theorem dropWrite_cmd (s : State) : (dropWrite s).cmd = s.cmd := rfl
@[simp] theorem dropWrite_srcAddr (s : State) : (dropWrite s).srcAddr = s.srcAddr := rfl
@[simp] theorem dropWrite_srcLen (s : State) : (dropWrite s).srcLen = s.srcLen := rfl
@[simp] theorem dropWrite_dstAddr (s : State) : (dropWrite s).dstAddr = s.dstAddr := rfl
@[simp] theorem dropWrite_outLen (s : State) : (dropWrite s).outLen = s.outLen := rfl
@[simp] theorem dropWrite_data (s : State) : (dropWrite s).data = s.data := rfl
@[simp] theorem dropWrite_typeTag (s : State) : (dropWrite s).typeTag = s.typeTag := rfl
@[simp] theorem dropWrite_crcAcc (s : State) : (dropWrite s).crcAcc = s.crcAcc := rfl
@[simp] theorem dropWrite_pend (s : State) : (dropWrite s).pend = s.pend := rfl
@[simp] theorem dropWrite_inBuf (s : State) : (dropWrite s).inBuf = s.inBuf := rfl
@[simp] theorem dropWrite_outBuf (s : State) : (dropWrite s).outBuf = s.outBuf := rfl
@[simp] theorem dropWrite_cfg (s : State) : (dropWrite s).cfg = s.cfg := rfl
@[simp] theorem dropWrite_draws (s : State) : (dropWrite s).draws = s.draws := rfl
@[simp] theorem dropWrite_inDraw (s : State) : (dropWrite s).inDraw = s.inDraw := rfl
@[simp] theorem dropWrite_outDraw (s : State) : (dropWrite s).outDraw = s.outDraw := rfl
@[simp] theorem dropWrite_outAborts (s : State) : (dropWrite s).outAborts = s.outAborts := rfl
@[simp] theorem dropWrite_schedule (s : State) : (dropWrite s).schedule = s.schedule := rfl
@[simp] theorem dropWrite_answers (s : State) : (dropWrite s).answers = s.answers := rfl
@[simp] theorem dropWrite_busErrors (s : State) : (dropWrite s).busErrors = s.busErrors := rfl

@[simp] theorem dropWrite_inByte (s : State) (a : Nat) : (dropWrite s).inByte a = s.inByte a := rfl
@[simp] theorem dropWrite_outByte (s : State) (a : Nat) : (dropWrite s).outByte a = s.outByte a := rfl

/-! ### `bumpDraws` -/

@[simp] theorem bumpDraws_ctrlIE (s : State) : (bumpDraws s).ctrlIE = s.ctrlIE := rfl
@[simp] theorem bumpDraws_busy (s : State) : (bumpDraws s).busy = s.busy := rfl
@[simp] theorem bumpDraws_done (s : State) : (bumpDraws s).done = s.done := rfl
@[simp] theorem bumpDraws_pass (s : State) : (bumpDraws s).pass = s.pass := rfl
@[simp] theorem bumpDraws_ovr (s : State) : (bumpDraws s).ovr = s.ovr := rfl
@[simp] theorem bumpDraws_err (s : State) : (bumpDraws s).err = s.err := rfl
@[simp] theorem bumpDraws_cmd (s : State) : (bumpDraws s).cmd = s.cmd := rfl
@[simp] theorem bumpDraws_srcAddr (s : State) : (bumpDraws s).srcAddr = s.srcAddr := rfl
@[simp] theorem bumpDraws_srcLen (s : State) : (bumpDraws s).srcLen = s.srcLen := rfl
@[simp] theorem bumpDraws_dstAddr (s : State) : (bumpDraws s).dstAddr = s.dstAddr := rfl
@[simp] theorem bumpDraws_outLen (s : State) : (bumpDraws s).outLen = s.outLen := rfl
@[simp] theorem bumpDraws_data (s : State) : (bumpDraws s).data = s.data := rfl
@[simp] theorem bumpDraws_typeTag (s : State) : (bumpDraws s).typeTag = s.typeTag := rfl
@[simp] theorem bumpDraws_crcAcc (s : State) : (bumpDraws s).crcAcc = s.crcAcc := rfl
@[simp] theorem bumpDraws_pend (s : State) : (bumpDraws s).pend = s.pend := rfl
@[simp] theorem bumpDraws_inBuf (s : State) : (bumpDraws s).inBuf = s.inBuf := rfl
@[simp] theorem bumpDraws_outBuf (s : State) : (bumpDraws s).outBuf = s.outBuf := rfl
@[simp] theorem bumpDraws_cfg (s : State) : (bumpDraws s).cfg = s.cfg := rfl
@[simp] theorem bumpDraws_draws (s : State) : (bumpDraws s).draws = s.draws + 1 := rfl
@[simp] theorem bumpDraws_inDraw (s : State) : (bumpDraws s).inDraw = s.inDraw := rfl
@[simp] theorem bumpDraws_outDraw (s : State) : (bumpDraws s).outDraw = s.outDraw := rfl
@[simp] theorem bumpDraws_outAborts (s : State) : (bumpDraws s).outAborts = s.outAborts := rfl
@[simp] theorem bumpDraws_schedule (s : State) : (bumpDraws s).schedule = s.schedule := rfl
@[simp] theorem bumpDraws_answers (s : State) : (bumpDraws s).answers = s.answers := rfl
@[simp] theorem bumpDraws_busErrors (s : State) : (bumpDraws s).busErrors = s.busErrors := rfl

@[simp] theorem bumpDraws_inByte (s : State) (a : Nat) : (bumpDraws s).inByte a = s.inByte a := rfl
@[simp] theorem bumpDraws_outByte (s : State) (a : Nat) : (bumpDraws s).outByte a = s.outByte a := rfl

/-! ### `writeStatus` -/

@[simp] theorem writeStatus_ctrlIE (w : Word) (s : State) : (writeStatus w s).ctrlIE = s.ctrlIE := rfl
@[simp] theorem writeStatus_busy (w : Word) (s : State) : (writeStatus w s).busy = s.busy := rfl
@[simp] theorem writeStatus_done (w : Word) (s : State) : (writeStatus w s).done = (s.done && !w.getLsbD 1) := rfl
@[simp] theorem writeStatus_pass (w : Word) (s : State) : (writeStatus w s).pass = s.pass := rfl
@[simp] theorem writeStatus_ovr (w : Word) (s : State) : (writeStatus w s).ovr = (s.ovr && !w.getLsbD 3) := rfl
@[simp] theorem writeStatus_err (w : Word) (s : State) : (writeStatus w s).err = s.err := rfl
@[simp] theorem writeStatus_cmd (w : Word) (s : State) : (writeStatus w s).cmd = s.cmd := rfl
@[simp] theorem writeStatus_srcAddr (w : Word) (s : State) : (writeStatus w s).srcAddr = s.srcAddr := rfl
@[simp] theorem writeStatus_srcLen (w : Word) (s : State) : (writeStatus w s).srcLen = s.srcLen := rfl
@[simp] theorem writeStatus_dstAddr (w : Word) (s : State) : (writeStatus w s).dstAddr = s.dstAddr := rfl
@[simp] theorem writeStatus_outLen (w : Word) (s : State) : (writeStatus w s).outLen = s.outLen := rfl
@[simp] theorem writeStatus_data (w : Word) (s : State) : (writeStatus w s).data = s.data := rfl
@[simp] theorem writeStatus_typeTag (w : Word) (s : State) : (writeStatus w s).typeTag = s.typeTag := rfl
@[simp] theorem writeStatus_crcAcc (w : Word) (s : State) : (writeStatus w s).crcAcc = s.crcAcc := rfl
@[simp] theorem writeStatus_pend (w : Word) (s : State) : (writeStatus w s).pend = s.pend := rfl
@[simp] theorem writeStatus_inBuf (w : Word) (s : State) : (writeStatus w s).inBuf = s.inBuf := rfl
@[simp] theorem writeStatus_outBuf (w : Word) (s : State) : (writeStatus w s).outBuf = s.outBuf := rfl
@[simp] theorem writeStatus_cfg (w : Word) (s : State) : (writeStatus w s).cfg = s.cfg := rfl
@[simp] theorem writeStatus_draws (w : Word) (s : State) : (writeStatus w s).draws = s.draws := rfl
@[simp] theorem writeStatus_inDraw (w : Word) (s : State) : (writeStatus w s).inDraw = s.inDraw := rfl
@[simp] theorem writeStatus_outDraw (w : Word) (s : State) : (writeStatus w s).outDraw = s.outDraw := rfl
@[simp] theorem writeStatus_outAborts (w : Word) (s : State) : (writeStatus w s).outAborts = s.outAborts := rfl
@[simp] theorem writeStatus_schedule (w : Word) (s : State) : (writeStatus w s).schedule = s.schedule := rfl
@[simp] theorem writeStatus_answers (w : Word) (s : State) : (writeStatus w s).answers = s.answers := rfl
@[simp] theorem writeStatus_busErrors (w : Word) (s : State) : (writeStatus w s).busErrors = s.busErrors := rfl

@[simp] theorem writeStatus_inByte (w : Word) (s : State) (a : Nat) : (writeStatus w s).inByte a = s.inByte a := rfl
@[simp] theorem writeStatus_outByte (w : Word) (s : State) (a : Nat) : (writeStatus w s).outByte a = s.outByte a := rfl

/-! ### `abortOut` and `softReset` -/

@[simp] theorem abortOut_ctrlIE (s : State) : (abortOut s).ctrlIE = s.ctrlIE := by unfold abortOut; split <;> rfl
@[simp] theorem abortOut_busy (s : State) : (abortOut s).busy = s.busy := by unfold abortOut; split <;> rfl
@[simp] theorem abortOut_done (s : State) : (abortOut s).done = s.done := by unfold abortOut; split <;> rfl
@[simp] theorem abortOut_pass (s : State) : (abortOut s).pass = s.pass := by unfold abortOut; split <;> rfl
@[simp] theorem abortOut_ovr (s : State) : (abortOut s).ovr = s.ovr := by unfold abortOut; split <;> rfl
@[simp] theorem abortOut_err (s : State) : (abortOut s).err = s.err := by unfold abortOut; split <;> rfl
@[simp] theorem abortOut_cmd (s : State) : (abortOut s).cmd = s.cmd := by unfold abortOut; split <;> rfl
@[simp] theorem abortOut_srcAddr (s : State) : (abortOut s).srcAddr = s.srcAddr := by unfold abortOut; split <;> rfl
@[simp] theorem abortOut_srcLen (s : State) : (abortOut s).srcLen = s.srcLen := by unfold abortOut; split <;> rfl
@[simp] theorem abortOut_dstAddr (s : State) : (abortOut s).dstAddr = s.dstAddr := by unfold abortOut; split <;> rfl
@[simp] theorem abortOut_outLen (s : State) : (abortOut s).outLen = s.outLen := by unfold abortOut; split <;> rfl
@[simp] theorem abortOut_data (s : State) : (abortOut s).data = s.data := by unfold abortOut; split <;> rfl
@[simp] theorem abortOut_typeTag (s : State) : (abortOut s).typeTag = s.typeTag := by unfold abortOut; split <;> rfl
@[simp] theorem abortOut_crcAcc (s : State) : (abortOut s).crcAcc = s.crcAcc := by unfold abortOut; split <;> rfl
@[simp] theorem abortOut_pend (s : State) : (abortOut s).pend = s.pend := by unfold abortOut; split <;> rfl
@[simp] theorem abortOut_inBuf (s : State) : (abortOut s).inBuf = s.inBuf := by unfold abortOut; split <;> rfl
@[simp] theorem abortOut_cfg (s : State) : (abortOut s).cfg = s.cfg := by unfold abortOut; split <;> rfl
@[simp] theorem abortOut_inDraw (s : State) : (abortOut s).inDraw = s.inDraw := by unfold abortOut; split <;> rfl
@[simp] theorem abortOut_outDraw (s : State) : (abortOut s).outDraw = s.outDraw := by unfold abortOut; split <;> rfl
@[simp] theorem abortOut_schedule (s : State) : (abortOut s).schedule = s.schedule := by unfold abortOut; split <;> rfl
@[simp] theorem abortOut_answers (s : State) : (abortOut s).answers = s.answers := by unfold abortOut; split <;> rfl
@[simp] theorem abortOut_busErrors (s : State) : (abortOut s).busErrors = s.busErrors := by unfold abortOut; split <;> rfl

theorem abortOut_of_idle {s : State} (h : s.busy = false) : abortOut s = s := by simp [abortOut, h]

theorem abortOut_of_busy {s : State} (h : s.busy = true) :
    abortOut s = { s with
      outBuf := s.outBuf.below s.dstAddr.toNat, outAborts := (s.dstAddr.toNat, s.draws) :: s.outAborts
      draws := s.draws + 1 } := by
  simp [abortOut, h]

@[simp] theorem softReset_ctrlIE (s : State) : (softReset s).ctrlIE = false := rfl
@[simp] theorem softReset_busy (s : State) : (softReset s).busy = false := rfl
@[simp] theorem softReset_done (s : State) : (softReset s).done = false := rfl
@[simp] theorem softReset_pass (s : State) : (softReset s).pass = false := rfl
@[simp] theorem softReset_ovr (s : State) : (softReset s).ovr = false := rfl
@[simp] theorem softReset_err (s : State) : (softReset s).err = 0#4 := rfl
@[simp] theorem softReset_cmd (s : State) : (softReset s).cmd = 0#32 := rfl
@[simp] theorem softReset_srcAddr (s : State) : (softReset s).srcAddr = 0#32 := rfl
@[simp] theorem softReset_srcLen (s : State) : (softReset s).srcLen = 0#32 := rfl
@[simp] theorem softReset_dstAddr (s : State) : (softReset s).dstAddr = 0#32 := rfl
@[simp] theorem softReset_outLen (s : State) : (softReset s).outLen = 0#32 := rfl
@[simp] theorem softReset_data (s : State) : (softReset s).data = 0#32 := rfl
@[simp] theorem softReset_typeTag (s : State) : (softReset s).typeTag = 0#32 := rfl
@[simp] theorem softReset_crcAcc (s : State) : (softReset s).crcAcc = 0xFFFFFFFF#32 := rfl
@[simp] theorem softReset_pend (s : State) : (softReset s).pend = none := rfl
@[simp] theorem softReset_inBuf (s : State) : (softReset s).inBuf = s.inBuf := by simp [softReset]
@[simp] theorem softReset_outBuf (s : State) : (softReset s).outBuf = (abortOut s).outBuf := rfl
@[simp] theorem softReset_cfg (s : State) : (softReset s).cfg = s.cfg := by simp [softReset]
@[simp] theorem softReset_draws (s : State) : (softReset s).draws = (abortOut s).draws := rfl
@[simp] theorem softReset_inDraw (s : State) : (softReset s).inDraw = s.inDraw := by simp [softReset]
@[simp] theorem softReset_outDraw (s : State) : (softReset s).outDraw = s.outDraw := by simp [softReset]
@[simp] theorem softReset_outAborts (s : State) : (softReset s).outAborts = (abortOut s).outAborts := rfl
@[simp] theorem softReset_schedule (s : State) : (softReset s).schedule = s.schedule := by simp [softReset]
@[simp] theorem softReset_answers (s : State) : (softReset s).answers = s.answers := by simp [softReset]
@[simp] theorem softReset_busErrors (s : State) : (softReset s).busErrors = s.busErrors := by simp [softReset]

theorem softReset_inByte (s : State) (a : Nat) : (softReset s).inByte a = s.inByte a := by
  simp [State.inByte]

/-- A CTRL write with bit 1 set is a soft reset, whatever its bit 0 (70_reset_and_hazards.md R282). -/
theorem writeCtrl_of_reset {w : Word} (h : w.getLsbD 1 = true) (s : State) : writeCtrl w s = softReset s := by
  rw [writeCtrl, if_pos h]
  cases hb : s.busy <;> simp [softReset, abortOut, hb, resetRegisters]

theorem writeCtrl_of_no_reset {w : Word} (h : w.getLsbD 1 = false) (s : State) :
    writeCtrl w s = { s with ctrlIE := w.getLsbD 0 } := by
  rw [writeCtrl, if_neg (by simp only [h]; decide)]

/-- OUT after a soft reset of an idle block. -/
theorem softReset_outByte_of_idle {s : State} (h : s.busy = false) (a : Nat) :
    (softReset s).outByte a = s.outByte a := by
  simp [State.outByte, abortOut_of_idle h]

/-- OUT after a soft reset that aborts a command: kept below DST_ADDR, a free value of a new draw from there on
(70_reset_and_hazards.md R283). -/
theorem softReset_outByte_of_busy {s : State} (h : s.busy = true) (a : Nat) :
    (softReset s).outByte a = if a < s.dstAddr.toNat then s.outByte a else Config.freeOut s.draws a := by
  simp only [State.outByte, softReset_outBuf, softReset_outAborts, softReset_outDraw, abortOut_of_busy h,
    Memory.read_below, drawAt]
  by_cases ha : a < s.dstAddr.toNat
  · simp [ha, show ¬ s.dstAddr.toNat ≤ a by omega]
  · simp [ha, show s.dstAddr.toNat ≤ a by omega]

/-! ### `unlessBusy` -/

theorem unlessBusy_of_busy {s : State} (h : s.busy = true) (t : State) : unlessBusy s t = dropWrite s := by
  simp [unlessBusy, h]

theorem unlessBusy_of_idle {s : State} (h : s.busy = false) (t : State) : unlessBusy s t = t := by
  simp [unlessBusy, h]

end Sys2Proof.Machine
end

