-- ==== Sys2Proof/Laws/Ops.lean ====
section
/-! SUPPORT. What each shared operation of the commands can do, said once: cite these rather than unfold it. -/

namespace Sys2Proof.Machine

variable {s : State}

/-! ### Reading IN and writing OUT -/

@[simp] theorem inBytes_length (s : State) (a n : Nat) : (s.inBytes a n).length = n := by simp [State.inBytes]

theorem loadIn_of_fits {a n : Nat} (k : List Byte → Result) (h : a + n ≤ s.cfg.inSize.toNat) :
    loadIn s a n k = k (s.inBytes a n) := by
  simp [loadIn, memRead, h]

theorem storeOut_of_fits {a : Nat} {bytes : List Byte} (k : State → Result)
    (h : a + bytes.length ≤ s.cfg.outSize.toNat) :
    storeOut s a bytes k = k { s with outBuf := s.outBuf.writeBytes a bytes } := by
  simp [storeOut, memWrite, h]

/-- A byte of OUT after a write: the written byte inside the range, the old one outside. -/
theorem outByte_after_write (s : State) (a : Nat) (bytes : List Byte) (b : Nat) :
    State.outByte { s with outBuf := s.outBuf.writeBytes a bytes } b =
      if a ≤ b ∧ b < a + bytes.length then bytes.getD (b - a) 0#8 else s.outByte b := by
  simp only [State.outByte, Memory.read_writeBytes]
  by_cases h : a ≤ b ∧ b < a + bytes.length
  · have hb : b - a < bytes.length := by omega
    simp [h, List.getD, List.getElem?_eq_getElem hb]
  · simp [h]

/-- A byte of IN after a host write: the written byte at its offset, the old one elsewhere. -/
theorem inByte_after_write (s : State) (a : Nat) (v : Byte) (b : Nat) :
    State.inByte { s with inBuf := s.inBuf.write a v } b = if b = a then v else s.inByte b := by
  by_cases h : b = a
  · subst h; simp [State.inByte, Memory.read_write_same]
  · simp [State.inByte, Memory.read_write_other _ _ h, h]

/-! ### The guards -/

theorem guardSrc_of_fits {n : Nat} (k : Result) (h : s.srcFits n) : guardSrc s n k = k := if_pos h

theorem guardSrc_of_not_fits {n : Nat} (k : Result) (h : ¬ s.srcFits n) :
    guardSrc s n k = .next (raiseError .srcRange s) := if_neg h

theorem guardDst_of_fits {n : Nat} (k : Result) (h : s.dstFits n) : guardDst s n k = k := if_pos h

theorem guardDst_of_not_fits {n : Nat} (k : Result) (h : ¬ s.dstFits n) :
    guardDst s n k = .next (raiseError .dstRange s) := if_neg h

/-! ### Source and destination operands -/

theorem withSource_of_fits {n : Nat} (k : List Byte → Result) (h : s.srcFits n) :
    withSource s n k = k (s.inBytes s.src n) := by
  rw [withSource, guardSrc_of_fits _ h, loadIn_of_fits _ h]

theorem withSource_of_not_fits {n : Nat} (k : List Byte → Result) (h : ¬ s.srcFits n) :
    withSource s n k = .next (raiseError .srcRange s) := guardSrc_of_not_fits _ h

/-- Everything a source operand can do. -/
theorem withSource_cases (s : State) (n : Nat) (k : List Byte → Result) :
    (s.srcFits n ∧ withSource s n k = k (s.inBytes s.src n)) ∨
      (¬ s.srcFits n ∧ withSource s n k = .next (raiseError .srcRange s)) := by
  by_cases h : s.srcFits n
  · exact .inl ⟨h, withSource_of_fits k h⟩
  · exact .inr ⟨h, withSource_of_not_fits k h⟩

/-- The state after a command wrote `bytes` at DST_ADDR and completed. -/
def afterOut (s : State) (bytes : List Byte) : State :=
  complete true bytes.length { s with outBuf := s.outBuf.writeBytes s.dst bytes }

theorem writeOut_of_fits {bytes : List Byte} (h : s.dstFits bytes.length) :
    writeOut s bytes = .next (afterOut s bytes) := storeOut_of_fits _ h

/-- Everything a destination operand can do, guarded by the length of what it writes. -/
theorem guardedOut_cases (s : State) (bytes : List Byte) :
    (s.dstFits bytes.length ∧ guardDst s bytes.length (writeOut s bytes) = .next (afterOut s bytes)) ∨
      (¬ s.dstFits bytes.length ∧
        guardDst s bytes.length (writeOut s bytes) = .next (raiseError .dstRange s)) := by
  by_cases h : s.dstFits bytes.length
  · exact .inl ⟨h, by rw [guardDst_of_fits _ h, writeOut_of_fits h]⟩
  · exact .inr ⟨h, guardDst_of_not_fits _ h⟩

/-- OUT after a completed output, byte by byte. -/
theorem afterOut_outByte (s : State) (bytes : List Byte) (a : Nat) :
    (afterOut s bytes).outByte a =
      if s.dst ≤ a ∧ a < s.dst + bytes.length then bytes.getD (a - s.dst) 0#8 else s.outByte a := by
  simp only [afterOut, complete_outByte]
  exact outByte_after_write s s.dst bytes a

@[simp] theorem afterOut_outLen (s : State) (bytes : List Byte) :
    (afterOut s bytes).outLen = BitVec.ofNat 32 bytes.length := rfl

/-- OUT_LEN does not wrap: what fits in OUT is at most 2^32 - 1 bytes. -/
theorem outLen_of_dstFits {n : Nat} (h : s.dstFits n) : (BitVec.ofNat 32 n).toNat = n := by
  have := s.cfg.outSize.isLt
  simp only [State.dstFits] at h
  simp only [BitVec.toNat_ofNat]
  omega

/-! ### What each command can do -/

theorem execFrameChunk_of_fits (hs : s.srcFits s.len) (hd : s.dstFits (12 + s.len)) :
    execFrameChunk s = .next (afterOut s (chunk s.tag (s.inBytes s.src s.len))) := by
  rw [execFrameChunk, guardSrc_of_fits _ hs, guardDst_of_fits _ hd, loadIn_of_fits _ hs, writeOut_of_fits]
  simp only [chunk_length, State.tag_length, inBytes_length, State.dstFits] at hd ⊢
  omega

theorem execEncode_of_fits (hs : s.srcFits s.len) (hd : s.dstFits (57 + s.len)) :
    execEncode s = .next (afterOut s (encodeContainer (s.inBytes s.src s.len))) := by
  rw [execEncode, guardSrc_of_fits _ hs, guardDst_of_fits _ hd, loadIn_of_fits _ hs, writeOut_of_fits]
  simpa using hd

theorem execPack32_of_fits (hd : s.dstFits 4) : execPack32 s = .next (afterOut s (be32 s.data)) := by
  rw [execPack32, guardDst_of_fits _ hd, writeOut_of_fits (by simpa using hd)]

theorem execDecode_of_some {p : List Byte} (hs : s.srcFits s.len)
    (hp : decodeContainer (s.inBytes s.src s.len) = some p) :
    execDecode s = guardDst s p.length (writeOut s p) := by
  rw [execDecode, withSource_of_fits _ hs]; simp only [hp]

theorem execDecode_of_none (hs : s.srcFits s.len) (hp : decodeContainer (s.inBytes s.src s.len) = none) :
    execDecode s = .next (complete false 0 s) := by
  rw [execDecode, withSource_of_fits _ hs]; simp only [hp]

/-! ### The step -/

theorem step_idle (h : s.schedule = []) : step s = engineStep s := by simp [step, h]

theorem step_event {e : Event} {rest : List Event} (h : s.schedule = e :: rest) :
    step s = runEvent e { s with schedule := rest } := by simp [step, h]

theorem step_scheduled (s : State) (e : Event) (rest : List Event) :
    step { s with schedule := e :: rest } = runEvent e { s with schedule := rest } := rfl

/-- A run of one step more is a step and the rest of the run. -/
theorem run_succ {n : Nat} {s t : State} (h : step s = .next t) :
    Host.Core.run Sys2Proof.core (n + 1) s = Host.Core.run Sys2Proof.core n t := by
  simp only [Host.Core.run]
  rw [show Sys2Proof.core.step s = .next t from h]

theorem engineStep_none (h : s.pend = none) : engineStep s = .next s := by simp [engineStep, h]

theorem engineStep_command {w : Word} {i : Instr} (h : s.pend = some w) (hi : decode w = .ok i) :
    engineStep s = exec i s := by simp [engineStep, h, hi]

theorem engineStep_illegal {w : Word} {e : DecodeReject} (h : s.pend = some w) (he : decode w = .error e) :
    engineStep s = .next (raiseError .illegal s) := by simp [engineStep, h, he]

end Sys2Proof.Machine
end

