-- ==== Sys2Proof/Laws/Step.lean ====
section
/-! SUPPORT. What one command, one host transaction and one step can do, said once: the case analyses that statements
about all steps start from. -/

namespace Sys2Proof.Machine

variable {s t : State}

/-! ### Operands -/

theorem unbe32_toNat (a b c d : Byte) :
    (unbe32 [a, b, c, d]).toNat = a.toNat * 2 ^ 24 + b.toNat * 2 ^ 16 + c.toNat * 2 ^ 8 + d.toNat := by
  have := a.isLt; have := b.isLt; have := c.isLt; have := d.isLt
  simp only [unbe32, List.getD_cons_zero, List.getD_cons_succ, BitVec.toNat_ofNat]
  omega

theorem inBytes_four (s : State) (a : Nat) :
    s.inBytes a 4 = [s.inByte a, s.inByte (a + 1), s.inByte (a + 2), s.inByte (a + 3)] := rfl

/-- A byte of IN depends on IN's contents and their draw alone. -/
theorem inByte_congr (a : Nat) (h : t.inBuf = s.inBuf) (hd : t.inDraw = s.inDraw) : t.inByte a = s.inByte a := by
  simp [State.inByte, h, hd]

/-- A byte of OUT depends on OUT's contents and the draws of its unwritten bytes alone. -/
theorem outByte_congr (a : Nat) (h : t.outBuf = s.outBuf) (hd : t.outDraw = s.outDraw)
    (ha : t.outAborts = s.outAborts) : t.outByte a = s.outByte a := by
  simp [State.outByte, h, hd, ha]

/-! ### One command -/

/-- Everything a command can do: end in an error; complete without writing OUT, DATA and CRC_ACC as it likes; or, one of
the four that write OUT, write bytes that fit and complete. -/
theorem exec_inversion (i : Instr) (s : State) :
    (∃ e, exec i s = .next (raiseError e s)) ∨
    (∃ p d c, exec i s = .next (complete p 0 { s with data := d, crcAcc := c })) ∨
    (∃ bytes, i ∈ [Instr.pack32, .frameChunk, .encode, .decode] ∧ s.dstFits bytes.length ∧
      exec i s = .next (afterOut s bytes)) := by
  cases i with
  | crcInit => exact .inr (.inl ⟨_, _, _, rfl⟩)
  | crcByte => exact .inr (.inl ⟨_, _, _, rfl⟩)
  | crcUpdate =>
    rcases withSource_cases s s.len fun bytes =>
      .next (complete true 0 { s with crcAcc := crcFold s.crcAcc bytes }) with ⟨_, h⟩ | ⟨_, h⟩
    · exact .inr (.inl ⟨_, _, _, h⟩)
    · exact .inl ⟨_, h⟩
  | crcCompute =>
    rcases withSource_cases s s.len fun bytes => .next (complete true 0 { s with
      crcAcc := crcFold crcInitValue bytes, data := crcFold crcInitValue bytes ^^^ 0xFFFFFFFF#32 })
      with ⟨_, h⟩ | ⟨_, h⟩
    · exact .inr (.inl ⟨_, _, _, h⟩)
    · exact .inl ⟨_, h⟩
  | unpack32 =>
    rcases withSource_cases s 4 fun bytes => .next (complete true 0 { s with data := unbe32 bytes })
      with ⟨_, h⟩ | ⟨_, h⟩
    · exact .inr (.inl ⟨_, _, _, h⟩)
    · exact .inl ⟨_, h⟩
  | pack32 =>
    by_cases hd : s.dstFits 4
    · exact .inr (.inr ⟨be32 s.data, by simp, by simpa using hd, execPack32_of_fits hd⟩)
    · exact .inl ⟨_, guardDst_of_not_fits _ hd⟩
  | frameChunk =>
    by_cases hs : s.srcFits s.len
    · by_cases hd : s.dstFits (12 + s.len)
      · refine .inr (.inr ⟨_, by simp, ?_, execFrameChunk_of_fits hs hd⟩)
        simp only [chunk_length, State.tag_length, inBytes_length, State.dstFits] at hd ⊢
        omega
      · exact .inl ⟨_, (guardSrc_of_fits _ hs).trans (guardDst_of_not_fits _ hd)⟩
    · exact .inl ⟨_, guardSrc_of_not_fits _ hs⟩
  | encode =>
    by_cases hs : s.srcFits s.len
    · by_cases hd : s.dstFits (57 + s.len)
      · exact .inr (.inr ⟨_, by simp, by simpa using hd, execEncode_of_fits hs hd⟩)
      · exact .inl ⟨_, (guardSrc_of_fits _ hs).trans (guardDst_of_not_fits _ hd)⟩
    · exact .inl ⟨_, guardSrc_of_not_fits _ hs⟩
  | decode =>
    by_cases hs : s.srcFits s.len
    · cases hc : decodeContainer (s.inBytes s.src s.len) with
      | none => exact .inr (.inl ⟨_, s.data, s.crcAcc, execDecode_of_none hs hc⟩)
      | some p =>
        rcases guardedOut_cases s p with ⟨h, e⟩ | ⟨_, e⟩
        · exact .inr (.inr ⟨p, by simp, h, (execDecode_of_some hs hc).trans e⟩)
        · exact .inl ⟨_, (execDecode_of_some hs hc).trans e⟩
    · exact .inl ⟨_, guardSrc_of_not_fits _ hs⟩

/-! ### One host transaction -/

/-- Everything a host transaction can do, one constructor per kind of effect. -/
inductive HostEffect (x : Access) (s : State) : State → Prop where
  /-- An illegal access. -/
  | illegal : HostEffect x s (busError x s)
  /-- A legal read. -/
  | read (a : Answer) (n : Nat) (h : x.transfer = .read8 ∨ x.transfer = .read32) :
      HostEffect x s { s with answers := a :: s.answers, draws := s.draws + n }
  /-- A write of CTRL. -/
  | ctrl (w : Word) (h : x = ⟨.reg, 0x04, .write32 w⟩) : HostEffect x s (answer .written (writeCtrl w s))
  /-- A write of STATUS. -/
  | status (w : Word) (h : x = ⟨.reg, 0x08, .write32 w⟩) : HostEffect x s (answer .written (writeStatus w s))
  /-- An issue. -/
  | cmd (w : Word) (h : x = ⟨.reg, 0x0C, .write32 w⟩) (hb : s.busy = false) :
      HostEffect x s (answer .written (issue w s))
  /-- A write of an operand register while idle. -/
  | operand (sa sl da d ty ca : Word) (hb : s.busy = false) (off : Nat) (w : Word)
      (h : x = ⟨.reg, off, .write32 w⟩) (ho : off ∈ [(0x10 : Nat), 0x14, 0x18, 0x20, 0x24, 0x28]) :
      HostEffect x s (answer .written { s with
        srcAddr := sa, srcLen := sl, dstAddr := da, data := d, typeTag := ty, crcAcc := ca })
  /-- A write of an IN byte while idle. -/
  | inByte (a : Nat) (b : Byte) (h : x = ⟨.inBuf, a, .write8 b⟩) (hb : s.busy = false)
      (ha : a < s.cfg.inSize.toNat) : HostEffect x s (answer .written { s with inBuf := s.inBuf.write a b })
  /-- A write of CMD or an operand register, dropped because the block is busy. -/
  | droppedReg (off : Nat) (w : Word) (h : x = ⟨.reg, off, .write32 w⟩) (hb : s.busy = true)
      (ho : off ∈ [(0x0C : Nat), 0x10, 0x14, 0x18, 0x20, 0x24, 0x28]) :
      HostEffect x s (answer .written (dropWrite s))
  /-- A write of an IN byte, dropped because the block is busy. -/
  | droppedIn (a : Nat) (b : Byte) (h : x = ⟨.inBuf, a, .write8 b⟩) (hb : s.busy = true)
      (ha : a < s.cfg.inSize.toNat) : HostEffect x s (answer .written (dropWrite s))
  /-- A write that is always ignored. -/
  | ignored (h : (∃ off w, x = ⟨.reg, off, .write32 w⟩ ∧ off ∈ [(0x00 : Nat), 0x1C, 0x2C, 0x30, 0x34, 0x38, 0x3C]) ∨
      ∃ a b, x = ⟨.outBuf, a, .write8 b⟩) : HostEffect x s (answer .written s)

/-- Every host transaction has one of those effects. -/
theorem hostAccess_inversion (x : Access) (s : State) : HostEffect x s (hostAccess x s) := by
  obtain ⟨sp, off, tr⟩ := x
  cases sp <;> cases tr <;> simp only [hostAccess]
  case reg.read32 =>
    cases Reg.ofOffset off with
    | none => exact .illegal
    | some r =>
      simp only [readReg]
      split
      · exact .read _ 1 (by simp)
      · exact .read _ 0 (by simp)
  case reg.write32 w =>
    cases hr : Reg.ofOffset off with
    | none => exact .illegal
    | some r =>
      unfold Reg.ofOffset at hr
      split at hr <;> cases hr <;> simp only [writeReg]
      case h_2 => exact .ctrl w rfl
      case h_3 => exact .status w rfl
      all_goals first
        | exact .ignored (.inl ⟨_, w, rfl, by decide⟩)
        | (rcases Bool.eq_false_or_eq_true s.busy with hb | hb
           · rw [unlessBusy_of_busy hb]
             exact .droppedReg _ w rfl hb (by decide)
           · rw [unlessBusy_of_idle hb]
             first
               | exact .cmd w rfl hb
               | exact .operand _ _ _ _ _ _ hb _ w rfl (by decide))
  case inBuf.read8 =>
    split
    · exact .read _ 0 (by simp)
    · exact .illegal
  case outBuf.read8 =>
    split
    · unfold readOut
      split
      · exact .read _ 1 (by simp)
      · exact .read _ 0 (by simp)
    · exact .illegal
  case inBuf.write8 b =>
    split
    · cases hb : s.busy
      · rw [writeIn, unlessBusy_of_idle hb]; exact .inByte _ _ rfl hb ‹_›
      · rw [writeIn, unlessBusy_of_busy hb]; exact .droppedIn _ _ rfl hb ‹_›
    · exact .illegal
  case outBuf.write8 b =>
    split
    · exact .ignored (.inr ⟨_, _, rfl⟩)
    · exact .illegal
  all_goals exact .illegal

/-- No host transaction touches the schedule. -/
theorem hostAccess_schedule (x : Access) (s : State) : (hostAccess x s).schedule = s.schedule := by
  have h := hostAccess_inversion x s
  generalize hostAccess x s = t at h
  cases h
  case ctrl w h => unfold writeCtrl; split <;> simp
  all_goals rfl

/-! ### One step -/

/-- When the engine moves, the step is the engine's, with the scheduled completion taken off. -/
theorem step_of_engineMoves (h : s.engineMoves = true) : step s = engineStep { s with schedule := s.schedule.tail } := by
  unfold State.engineMoves at h
  split at h
  · next hs =>
    rw [step_idle hs, hs]
    have e : { s with schedule := List.tail [] } = s := by cases s; simp_all
    rw [e]
  · next hs => rw [step_event hs, hs]; rfl
  · cases h
  · cases h

/-- Everything a step that goes on can be: the engine's completion, a host transaction or a hardware reset. -/
theorem step_inversion (h : step s = .next t) :
    (s.engineMoves = true ∧ engineStep { s with schedule := s.schedule.tail } = .next t) ∨
    (∃ x rest, s.schedule = .host x :: rest ∧ t = hostAccess x { s with schedule := rest }) ∨
    (∃ rest, s.schedule = .hardReset :: rest ∧ t = hardReset { s with schedule := rest }) := by
  cases hs : s.schedule with
  | nil =>
    have hm : s.engineMoves = true := by simp [State.engineMoves, hs]
    exact .inl ⟨hm, by rw [← hs, ← step_of_engineMoves hm]; exact h⟩
  | cons e rest =>
    cases e with
    | completion =>
      have hm : s.engineMoves = true := by simp [State.engineMoves, hs]
      exact .inl ⟨hm, by rw [← hs, ← step_of_engineMoves hm]; exact h⟩
    | host x => rw [step_event hs] at h; cases h; exact .inr (.inl ⟨x, rest, rfl, rfl⟩)
    | hardReset => rw [step_event hs] at h; cases h; exact .inr (.inr ⟨rest, rfl, rfl⟩)

/-- Everything the completion step can do: nothing when nothing is pending, else a command's meaning or
ERR_ILLEGAL. -/
theorem engineStep_inversion (s : State) :
    (s.pend = none ∧ engineStep s = .next s) ∨
    (∃ w i, s.pend = some w ∧ decode w = .ok i ∧ engineStep s = exec i s) ∨
    (∃ w e, s.pend = some w ∧ decode w = .error e ∧ engineStep s = .next (raiseError .illegal s)) := by
  cases hp : s.pend with
  | none => exact .inl ⟨rfl, engineStep_none hp⟩
  | some w =>
    cases hd : decode w with
    | ok i => exact .inr (.inl ⟨w, i, rfl, hd, engineStep_command hp hd⟩)
    | error e => exact .inr (.inr ⟨w, e, rfl, hd, engineStep_illegal hp hd⟩)

end Sys2Proof.Machine
end

