-- ==== Sys2Proof/Machine/HostProgram.lean ====
section
/-! DEFINITION. The host running a program of the spec's host syntax (30_encoding.md R120, R121): its lines, what each
expands to, and the host's own control flow, which reads the answers of the block. The host lies outside the block, so
what it holds is no field of `State`; every play of a program is a run of the machine (Laws/HostProgram.lean). -/

namespace Sys2Proof.Machine

/-- The offset of a register in the REG space (30_encoding.md R119). -/
def Reg.offset : Reg → Nat
  | .id => 0x00
  | .ctrl => 0x04
  | .status => 0x08
  | .cmd => 0x0C
  | .srcAddr => 0x10
  | .srcLen => 0x14
  | .dstAddr => 0x18
  | .outLen => 0x1C
  | .data => 0x20
  | .typeTag => 0x24
  | .crcAcc => 0x28
  | .crcResult => 0x2C
  | .inSize => 0x30
  | .outSize => 0x34
  | .reserved38 => 0x38
  | .reserved3C => 0x3C

/-! ### The lines and what they expand to -/

/-- A condition on the last value the host read. Every condition on 32 bits is a combination of these
(30_encoding.md R121). -/
inductive HostCond where
  /-- Bit `n` of the value is 1. -/
  | bit (n : Nat)
  | neg (c : HostCond)
  | both (c d : HostCond)
  deriving DecidableEq, Repr

/-- Whether a condition holds of a value; a bit past the value's width is 0 (log entry 17). -/
def HostCond.holds (v : Word) : HostCond → Bool
  | .bit n => v.getLsbD n
  | .neg c => !c.holds v
  | .both c d => c.holds v && d.holds v

/-- What the host does at one place of its program: a transaction, or a choice of the next place. -/
inductive HostOp where
  /-- A transaction fixed by the program. -/
  | access (x : Access)
  /-- `wrb IN[a], v`, where v is the value last read, which the host holds. -/
  | storeHeld (a : Nat)
  /-- If the condition holds of the value last read, go back over `n` places; else go on. -/
  | backIf (c : HostCond) (n : Nat)
  /-- A label: a place to go to. -/
  | label (name : Nat)
  /-- If the condition holds of the value last read, go to the label; else go on. -/
  | gotoIf (c : HostCond) (name : Nat)
  deriving DecidableEq, Repr

/-- A line of a host program (30_encoding.md R120, R121). A label's name is a number. -/
inductive HostLine where
  /-- `wr X, imm32` -/
  | wr (r : Reg) (w : Word)
  /-- `rd X` -/
  | rd (r : Reg)
  /-- `wrb IN[a], imm8` -/
  | wrb (a : Nat) (b : Byte)
  /-- `rdb IN[a]` -/
  | rdbIn (a : Nat)
  /-- `rdb OUT[a]` -/
  | rdbOut (a : Nat)
  /-- `MNEMONIC`, the CMD write of a command -/
  | command (i : Instr)
  /-- `wait` -/
  | wait
  /-- `ack` -/
  | ack
  /-- `load IN[a], b0 b1 ... bk` -/
  | load (a : Nat) (bytes : List Byte)
  /-- `args s, n, d` -/
  | args (src len dst : Word)
  /-- `run MNEMONIC` -/
  | run (i : Instr)
  /-- `copy OUT[a..a+n) -> IN[b]` -/
  | copy (a n b : Nat)
  /-- `name:` -/
  | label (name : Nat)
  /-- `if <condition on the last read> goto name` -/
  | gotoIf (c : HostCond) (name : Nat)
  deriving DecidableEq, Repr

/-- `wr X, imm32`. -/
def wrOp (r : Reg) (w : Word) : HostOp := .access ⟨.reg, r.offset, .write32 w⟩

/-- `rd X`. -/
def rdOp (r : Reg) : HostOp := .access ⟨.reg, r.offset, .read32⟩

/-- `MNEMONIC`: the command's word to CMD. -/
def commandOp (i : Instr) : HostOp := wrOp .cmd (encode i)

/-- `wait`, that is `loop: rd STATUS; if bit 0 = 1 goto loop`. -/
def waitOps : List HostOp := [rdOp .status, .backIf (.bit 0) 1]

/-- `load`: one byte write each, at rising offsets. -/
def loadOps : Nat → List Byte → List HostOp
  | _, [] => []
  | a, b :: rest => .access ⟨.inBuf, a, .write8 b⟩ :: loadOps (a + 1) rest

/-- `copy`: `n` times a read of OUT giving v, then the write of that v to IN. -/
def copyOps (a b : Nat) : Nat → List HostOp
  | 0 => []
  | n + 1 => .access ⟨.outBuf, a, .read8⟩ :: .storeHeld b :: copyOps (a + 1) (b + 1) n

/-- What a line expands to, in order (30_encoding.md R120, R121). -/
def HostLine.ops : HostLine → List HostOp
  | .wr r w => [wrOp r w]
  | .rd r => [rdOp r]
  | .wrb a b => [.access ⟨.inBuf, a, .write8 b⟩]
  | .rdbIn a => [.access ⟨.inBuf, a, .read8⟩]
  | .rdbOut a => [.access ⟨.outBuf, a, .read8⟩]
  | .command i => [commandOp i]
  | .wait => waitOps
  | .ack => [wrOp .status 0x0000000A#32]
  | .load a bytes => loadOps a bytes
  | .args src len dst => [wrOp .srcAddr src, wrOp .srcLen len, wrOp .dstAddr dst]
  | .run i => commandOp i :: waitOps
  | .copy a n b => copyOps a b n
  | .label name => [.label name]
  | .gotoIf c name => [.gotoIf c name]

/-- A program, expanded. -/
def programOps (lines : List HostLine) : List HostOp := lines.flatMap HostLine.ops

/-! ### The host and the block together -/

/-- A block with a host that runs a program beside it. -/
structure HostRun where
  /-- The block. -/
  block : State
  /-- The host's program, expanded. -/
  program : List HostOp
  /-- The place in the program the host is at; past the end the program is over. -/
  place : Nat
  /-- The value the host last read; a free value where no read has answered data (log entry 17). -/
  held : Word
  /-- What has happened, newest first. -/
  past : List Event
  deriving DecidableEq, Repr

/-- A block and a host at the start of a program. -/
def HostRun.start (lines : List HostLine) (s : State) : HostRun where
  block := s
  program := programOps lines
  place := 0
  held := Config.freeHostWord 0
  past := []

/-- What the host holds after a transaction: a read's value, zero-extended; a free value where the read answered no data;
after a write what it held before (20_memory.md R80, R85; log entry 17). -/
def heldAfter (x : Access) (answered : Option Answer) (read : Nat) (before : Word) : Word :=
  match x.transfer with
  | .write8 _ => before
  | .write32 _ => before
  | .read8 | .read32 =>
    match answered with
    | some (.data8 b) => b.setWidth 32
    | some (.data32 w) => w
    | some .written => Config.freeHostWord read
    | some .busError => Config.freeHostWord read
    | none => Config.freeHostWord read

/-- The host makes one transaction and goes on to the next place. -/
def HostRun.transact (x : Access) (r : HostRun) : HostRun :=
  { r with
    block := hostAccess x r.block
    place := r.place + 1
    held := heldAfter x (hostAccess x r.block).answers.head? (r.past.length + 1) r.held
    past := .host x :: r.past }

/-- The place of a label. DESIGN CHOICE (log entry 17): of a label the program carries twice, the first place; of one it
does not carry, the place past its end, where the program is over. 30_encoding.md R121 says neither. -/
def labelPlace (name : Nat) : List HostOp → Nat
  | [] => 0
  | op :: rest => if op = .label name then 0 else labelPlace name rest + 1

/-- The host's move: what stands at its place. A label or a branch is host control flow and no transaction
(30_encoding.md R121). A host whose program is over does nothing (log entry 17). -/
def HostRun.hostMove (r : HostRun) : HostRun :=
  match r.program[r.place]? with
  | none => r
  | some (.access x) => r.transact x
  | some (.storeHeld a) => r.transact ⟨.inBuf, a, .write8 (r.held.extractLsb' 0 8)⟩
  | some (.backIf c n) => { r with place := if c.holds r.held then r.place - n else r.place + 1 }
  | some (.label _) => { r with place := r.place + 1 }
  | some (.gotoIf c name) =>
    { r with place := if c.holds r.held then labelPlace name r.program else r.place + 1 }

/-- Who moves: the host, the engine, or the environment by a hardware reset (00_scope.md R22). -/
inductive Mover where
  | host
  | engine
  | environment
  deriving DecidableEq, Repr

/-- The block after an event that is not the host's, the host where it was. -/
def HostRun.happen (e : Event) (r : HostRun) : Host.Outcome HostRun Fault Refusal :=
  match runEvent e r.block with
  | .next t => .next { r with block := t, past := e :: r.past }
  | .fault f => .fault f
  | .refused f => .refused f

/-- One move. -/
def HostRun.move (m : Mover) (r : HostRun) : Host.Outcome HostRun Fault Refusal :=
  match m with
  | .host => .next r.hostMove
  | .engine => r.happen .completion
  | .environment => r.happen .hardReset

/-- A play: the moves of these movers, in order. Every interleaving of 20_memory.md R93 is some list of movers. -/
def HostRun.play (r : HostRun) : List Mover → Host.Outcome HostRun Fault Refusal
  | [] => .next r
  | m :: rest =>
    match r.move m with
    | .next t => t.play rest
    | .fault f => .fault f
    | .refused f => .refused f

end Sys2Proof.Machine
end

