-- ==== Sys2Proof/Laws/HostProgram.lean ====
section
/-! SUPPORT. What a host's program does to the block: every play of it is a run of the machine, and what one turn of
`wait` and of `copy` does. -/

namespace Sys2Proof.Machine

variable {s t : State}

/-! ### The schedule is read by no event -/

/-- Where `r` goes on, `r'` goes on to the same state with the schedule `q`. -/
def SameButSchedule (q : List Event) (r r' : Result) : Prop := ∀ t, r = .next t → r' = .next { t with schedule := q }

theorem guardSrc_withSchedule {q : List Event} {n : Nat} {k k' : Result} (h : SameButSchedule q k k') :
    SameButSchedule q (guardSrc s n k) (guardSrc { s with schedule := q } n k') := by
  intro t e
  by_cases hs : s.srcFits n
  · rw [guardSrc_of_fits _ hs] at e; exact (guardSrc_of_fits (s := { s with schedule := q }) _ hs).trans (h t e)
  · rw [guardSrc_of_not_fits _ hs] at e; cases e
    exact guardSrc_of_not_fits (s := { s with schedule := q }) _ hs

theorem guardDst_withSchedule {q : List Event} {n : Nat} {k k' : Result} (h : SameButSchedule q k k') :
    SameButSchedule q (guardDst s n k) (guardDst { s with schedule := q } n k') := by
  intro t e
  by_cases hs : s.dstFits n
  · rw [guardDst_of_fits _ hs] at e; exact (guardDst_of_fits (s := { s with schedule := q }) _ hs).trans (h t e)
  · rw [guardDst_of_not_fits _ hs] at e; cases e
    exact guardDst_of_not_fits (s := { s with schedule := q }) _ hs

theorem loadIn_withSchedule {q : List Event} {a n : Nat} {k k' : List Byte → Result}
    (h : ∀ bytes, SameButSchedule q (k bytes) (k' bytes)) :
    SameButSchedule q (loadIn s a n k) (loadIn { s with schedule := q } a n k') := by
  intro t e
  by_cases hs : a + n ≤ s.cfg.inSize.toNat
  · rw [loadIn_of_fits _ hs] at e; exact (loadIn_of_fits (s := { s with schedule := q }) _ hs).trans (h _ t e)
  · simp [loadIn, memRead, hs] at e

theorem writeOut_withSchedule {q : List Event} (bytes : List Byte) :
    SameButSchedule q (writeOut s bytes) (writeOut { s with schedule := q } bytes) := by
  intro t e
  by_cases hs : s.dstFits bytes.length
  · rw [writeOut_of_fits hs] at e; cases e; exact writeOut_of_fits (s := { s with schedule := q }) hs
  · simp only [writeOut, storeOut, memWrite] at e; rw [if_neg hs] at e; cases e

/-- No command reads the schedule. -/
theorem exec_withSchedule (i : Instr) (s : State) (q : List Event) :
    SameButSchedule q (exec i s) (exec i { s with schedule := q }) := by
  cases i with
  | crcInit => intro t e; cases e; rfl
  | crcByte => intro t e; cases e; rfl
  | crcUpdate => exact guardSrc_withSchedule (loadIn_withSchedule fun _ t e => by cases e; rfl)
  | crcCompute => exact guardSrc_withSchedule (loadIn_withSchedule fun _ t e => by cases e; rfl)
  | pack32 => exact guardDst_withSchedule (writeOut_withSchedule _)
  | unpack32 => exact guardSrc_withSchedule (loadIn_withSchedule fun _ t e => by cases e; rfl)
  | frameChunk =>
    exact guardSrc_withSchedule (guardDst_withSchedule (loadIn_withSchedule fun _ => writeOut_withSchedule _))
  | encode =>
    exact guardSrc_withSchedule (guardDst_withSchedule (loadIn_withSchedule fun _ => writeOut_withSchedule _))
  | decode =>
    refine guardSrc_withSchedule (loadIn_withSchedule fun c => ?_)
    cases decodeContainer c with
    | none => intro t e; cases e; rfl
    | some p => exact guardDst_withSchedule (writeOut_withSchedule _)

theorem engineStep_withSchedule (s : State) (q : List Event) :
    SameButSchedule q (engineStep s) (engineStep { s with schedule := q }) := by
  rcases engineStep_inversion s with ⟨hp, e⟩ | ⟨w, i, hp, hd, e⟩ | ⟨w, d, hp, hd, e⟩ <;> rw [e]
  · rw [engineStep_none (s := { s with schedule := q }) hp]; intro t e; cases e; rfl
  · rw [engineStep_command (s := { s with schedule := q }) hp hd]; exact exec_withSchedule i s q
  · rw [engineStep_illegal (s := { s with schedule := q }) hp hd]; intro t e; cases e; rfl

/-- No host transaction reads the schedule. -/
theorem hostAccess_withSchedule (x : Access) (s : State) (q : List Event) :
    hostAccess x { s with schedule := q } = { hostAccess x s with schedule := q } := by
  obtain ⟨sp, off, tr⟩ := x
  cases sp <;> cases tr <;> simp only [hostAccess]
  case reg.read32 =>
    cases Reg.ofOffset off with
    | none => rfl
    | some r => simp only [readReg]; split <;> cases r <;> rfl
  case reg.write32 w =>
    cases Reg.ofOffset off with
    | none => rfl
    | some r =>
      cases r <;> simp only [writeReg, unlessBusy, writeCtrl, softReset, abortOut]
      all_goals first | rfl | (split <;> first | rfl | (split <;> rfl))
  all_goals
    first
      | rfl
      | (split <;> first
        | rfl
        | (unfold readOut; split <;> rfl)
        | (unfold writeIn unlessBusy; split <;> rfl))

theorem runEvent_withSchedule (e : Event) (s : State) (q : List Event) :
    SameButSchedule q (runEvent e s) (runEvent e { s with schedule := q }) := by
  cases e with
  | host x => intro t h; cases h; exact congrArg _ (hostAccess_withSchedule x s q)
  | completion => exact engineStep_withSchedule s q
  | hardReset => intro t h; cases h; rfl

/-! ### A play is a run -/

/-- A move adds at most one event to what has happened, and is that event's effect on the block. -/
theorem move_inversion {m : Mover} {r u : HostRun} (h : r.move m = .next u) :
    (u.block = r.block ∧ u.past = r.past) ∨
      ∃ e, runEvent e r.block = .next u.block ∧ u.past = e :: r.past := by
  cases m with
  | host =>
    cases h
    unfold HostRun.hostMove
    split
    · exact .inl ⟨rfl, rfl⟩
    · exact .inr ⟨_, rfl, rfl⟩
    · exact .inr ⟨_, rfl, rfl⟩
    · exact .inl ⟨rfl, rfl⟩
    · exact .inl ⟨rfl, rfl⟩
    · exact .inl ⟨rfl, rfl⟩
  | engine =>
    simp only [HostRun.move, HostRun.happen] at h
    split at h <;> cases h
    exact .inr ⟨_, by assumption, rfl⟩
  | environment => cases h; exact .inr ⟨_, rfl, rfl⟩

/-- Every play of a program is the run of a schedule: the events that happened, in order (20_memory.md R93). -/
theorem play_is_run {ms : List Mover} {r u : HostRun} (h : r.play ms = .next u) (rest : List Event) :
    ∃ es : List Event, u.past = es.reverse ++ r.past ∧
      Host.Core.run Sys2Proof.core es.length { r.block with schedule := es ++ rest } =
        .next { u.block with schedule := rest } := by
  induction ms generalizing r with
  | nil => cases h; exact ⟨[], rfl, rfl⟩
  | cons m ms ih =>
    simp only [HostRun.play] at h
    split at h <;> try cases h
    next v hv =>
      obtain ⟨es, hp, hr⟩ := ih h
      rcases move_inversion hv with ⟨hb, hq⟩ | ⟨e, hb, hq⟩
      · exact ⟨es, by rw [hp, hq], by rw [← hb]; exact hr⟩
      · refine ⟨e :: es, by simp [hp, hq], ?_⟩
        rw [List.length_cons, run_succ (t := { v.block with schedule := es ++ rest })]
        · exact hr
        · exact runEvent_withSchedule e r.block (es ++ rest) _ hb

/-! ### `wait` and `copy` -/

/-- Bit 0 of the word STATUS reads is BUSY (10_state.md R33). -/
theorem statusWord_bit0 (s : State) : s.statusWord.getLsbD 0 = s.busy := by
  simp only [State.statusWord, flagBit]
  cases s.busy <;> cases s.done <;> cases s.pass <;> cases s.ovr <;> simp

/-- One turn of `wait`: STATUS is read once, and the host is back at the read exactly when BUSY = 1. -/
theorem wait_turn {r : HostRun} (h0 : r.program[r.place]? = some (rdOp .status))
    (h1 : r.program[r.place + 1]? = some (.backIf (.bit 0) 1)) :
    r.play [.host, .host] = .next { r with
      block := answer (.data32 r.block.statusWord) r.block
      place := if r.block.busy then r.place else r.place + 2
      held := r.block.statusWord
      past := .host ⟨.reg, 0x08, .read32⟩ :: r.past } := by
  have e : r.hostMove = r.transact ⟨.reg, 0x08, .read32⟩ := by simp [HostRun.hostMove, h0, rdOp, Reg.offset]
  have ha : hostAccess ⟨.reg, 0x08, .read32⟩ r.block = answer (.data32 r.block.statusWord) r.block := by
    simp [hostAccess, Reg.ofOffset, readReg, Reg.unspecifiedWhileBusy, State.regValue]
  simp only [HostRun.play, HostRun.move, e, HostRun.transact, ha, heldAfter, answer, List.head?_cons]
  simp only [HostRun.hostMove, h1, HostCond.holds, statusWord_bit0]
  simp

/-- `wait` ends after the completion: the engine's move and one more turn (30_encoding.md R121, R295). -/
theorem wait_ends {r : HostRun} (h0 : r.program[r.place]? = some (rdOp .status))
    (h1 : r.program[r.place + 1]? = some (.backIf (.bit 0) 1)) (hp : r.block.pend ≠ none) :
    ∃ u : HostRun, r.play [.engine, .host, .host] = .next u ∧ u.place = r.place + 2 ∧ u.block.busy = false := by
  obtain ⟨t, ht, hb⟩ : ∃ t, engineStep r.block = .next t ∧ t.busy = false := by
    rcases engineStep_inversion r.block with ⟨hn, _⟩ | ⟨w, i, _, _, e⟩ | ⟨w, d, _, _, e⟩
    · exact absurd hn hp
    · rw [e]
      rcases exec_inversion i r.block with ⟨_, e⟩ | ⟨_, _, _, e⟩ | ⟨_, _, _, e⟩ <;> exact ⟨_, e, rfl⟩
    · exact ⟨_, e, rfl⟩
  have hm : r.move .engine = .next { r with block := t, past := .completion :: r.past } := by
    simp [HostRun.move, HostRun.happen, runEvent, ht]
  have hw := wait_turn (r := { r with block := t, past := .completion :: r.past }) h0 h1
  rw [HostRun.play, hm]
  exact ⟨_, hw, by simp [hb], hb⟩

/-- One pair of `copy`: the byte written to IN is the byte the read of OUT answered. -/
theorem copy_turn {r : HostRun} {a b : Nat} {v : Byte} {old : List Answer}
    (h0 : r.program[r.place]? = some (.access ⟨.outBuf, a, .read8⟩))
    (h1 : r.program[r.place + 1]? = some (.storeHeld b))
    (hv : (hostAccess ⟨.outBuf, a, .read8⟩ r.block).answers = .data8 v :: old) :
    r.play [.host, .host] = .next { r with
      block := hostAccess ⟨.inBuf, b, .write8 v⟩ (hostAccess ⟨.outBuf, a, .read8⟩ r.block)
      place := r.place + 2
      held := v.setWidth 32
      past := .host ⟨.inBuf, b, .write8 v⟩ :: .host ⟨.outBuf, a, .read8⟩ :: r.past } := by
  have low : (v.setWidth 32).extractLsb' 0 8 = v := by
    apply BitVec.eq_of_getLsbD_eq; intro i hi; simp [hi]; omega
  simp only [HostRun.play, HostRun.move, HostRun.hostMove, h0, HostRun.transact, hv, heldAfter, List.head?_cons, h1, low]
end Sys2Proof.Machine
end

