-- ==== Sys2Proof/Laws/PerInstr.lean ====
section
/-! SUPPORT. The statements made per command: family `Encoding`. -/

namespace Sys2Proof.Laws.Encoding

/-- A command is well formed; its word has clear reserved bits and its opcode in bits 7:0, decodes to it, and so does
the same word numbered as the opcode table numbers it (30_encoding.md R110 to R113). -/
def Statement (i : Instr) : Prop :=
  i.wf = true ∧ reservedBitsClear (encode i) = true ∧ (encode i).extractLsb' 0 8 = i.opcode ∧
    decode (encode i) = .ok i ∧ decodeTableWord 32 (encode i).toNat = some i

theorem crcInit : Statement .crcInit := by unfold Statement; decide

theorem crcByte : Statement .crcByte := by unfold Statement; decide

theorem crcUpdate : Statement .crcUpdate := by unfold Statement; decide

theorem crcCompute : Statement .crcCompute := by unfold Statement; decide

theorem pack32 : Statement .pack32 := by unfold Statement; decide

theorem unpack32 : Statement .unpack32 := by unfold Statement; decide

theorem frameChunk : Statement .frameChunk := by unfold Statement; decide

theorem encode : Statement .encode := by unfold Statement; decide

theorem decode : Statement .decode := by unfold Statement; decide

end Sys2Proof.Laws.Encoding
end

