-- ==== Sys2Proof/Tests/Slice0.lean ====
section
/-! SUPPORT. The model's own tests. Expected values come from 95_test_vectors.md, by the vector named at each theorem, or
from the rule named there. The last part shows, for each statement with hypotheses, a state and operands that meet
them. -/

namespace Sys2Proof.Tests

open Sys2Proof Sys2Proof.Machine

/-! ### Builders -/

/-- The state after reset with bytes written to IN from an offset on. -/
def loaded (a : Nat) (bytes : List Byte) : State := { State.reset with inBuf := Memory.writeBytes [] a bytes }

/-- A state with these operands: SRC_ADDR, SRC_LEN, DST_ADDR. -/
def withArgs (src len dst : Word) (s : State) : State := { s with srcAddr := src, srcLen := len, dstAddr := dst }

/-- The outcome is a next state that passes the check. -/
def endsIn (r : Result) (check : State → Bool) : Bool :=
  match r with
  | .next t => check t
  | .fault _ => false
  | .refused _ => false

/-- The next state of an outcome that goes on. -/
def nextOf (r : Result) : State :=
  match r with
  | .next t => t
  | .fault _ => State.reset
  | .refused _ => State.reset

/-- An outcome whose next state passes some check is that next state. -/
theorem eq_next_of_endsIn {r : Result} {check : State → Bool} (h : endsIn r check = true) : r = .next (nextOf r) := by
  cases r
  · rfl
  · cases h
  · cases h

/-- `n` bytes of OUT. -/
def outBytes (t : State) (a n : Nat) : List Byte := (List.range n).map fun k => t.outByte (a + k)

/-- "Hello, world!" -/
def hello : List Byte :=
  [0x48#8, 0x65#8, 0x6C#8, 0x6C#8, 0x6F#8, 0x2C#8, 0x20#8, 0x77#8, 0x6F#8, 0x72#8, 0x6C#8, 0x64#8, 0x21#8]

/-- "123456789" -/
def digits : List Byte := [0x31#8, 0x32#8, 0x33#8, 0x34#8, 0x35#8, 0x36#8, 0x37#8, 0x38#8, 0x39#8]

/-- The first 33 bytes of V-SRC-1: the signature and the header-chunk. -/
def helloHead : List Byte :=
  [0x89#8, 0x50#8, 0x4E#8, 0x47#8, 0x0D#8, 0x0A#8, 0x1A#8, 0x0A#8, 0x00#8, 0x00#8, 0x00#8, 0x0D#8, 0x49#8, 0x48#8,
    0x44#8, 0x52#8, 0x00#8, 0x00#8, 0x00#8, 0x01#8, 0x00#8, 0x00#8, 0x00#8, 0x01#8, 0x08#8, 0x06#8, 0x00#8, 0x00#8,
    0x00#8, 0x1F#8, 0x15#8, 0xC4#8, 0x89#8]

/-- V-SRC-1, the container of "Hello, world!", 70 bytes. -/
def helloBox : List Byte :=
  helloHead ++ [0x00#8, 0x00#8, 0x00#8, 0x0D#8, 0x49#8, 0x44#8, 0x41#8, 0x54#8] ++ hello ++
    [0xA6#8, 0x65#8, 0xCE#8, 0x9E#8] ++
    [0x00#8, 0x00#8, 0x00#8, 0x00#8, 0x49#8, 0x45#8, 0x4E#8, 0x44#8, 0xAE#8, 0x42#8, 0x60#8, 0x82#8]

/-- V-SRC-2, the container of the empty payload, 57 bytes. -/
def emptyBox : List Byte :=
  helloHead ++ [0x00#8, 0x00#8, 0x00#8, 0x00#8, 0x49#8, 0x44#8, 0x41#8, 0x54#8, 0x35#8, 0xAF#8, 0x06#8, 0x1E#8] ++
    [0x00#8, 0x00#8, 0x00#8, 0x00#8, 0x49#8, 0x45#8, 0x4E#8, 0x44#8, 0xAE#8, 0x42#8, 0x60#8, 0x82#8]

/-! ### Well-formedness: what each check refuses -/

theorem test_wf_no_in_bytes : Config.wf { inSize := 0#32, outSize := 256#32 } = false := by decide

theorem test_wf_no_out_bytes : Config.wf { inSize := 256#32, outSize := 0#32 } = false := by decide

theorem test_wf_reference : Config.wf Config.reference = true := by decide

/-- A word with bit 8 set is no well-formed command word (30_encoding.md R110). -/
theorem test_wf_reserved_bits : reservedBitsClear 0x00000130#32 = false := by decide

/-- A command has no field that could be ill formed (30_encoding.md R112), so the check accepts each. -/
theorem test_wf_commands :
    [Instr.crcInit, .crcByte, .crcUpdate, .crcCompute, .pack32, .unpack32, .frameChunk, .encode, .decode].all
      Instr.wf = true := by decide

/-! ### Decoding: each word written out from format C, RSV in bits 31:8 and OPC in bits 7:0 (30_encoding.md R110, R113) -/

theorem test_word_crcInit : decode 0b00000000000000000000000000000001#32 = .ok .crcInit := by decide

theorem test_word_crcByte : decode 0b00000000000000000000000000000010#32 = .ok .crcByte := by decide

theorem test_word_crcUpdate : decode 0b00000000000000000000000000000011#32 = .ok .crcUpdate := by decide

theorem test_word_crcCompute : decode 0b00000000000000000000000000000100#32 = .ok .crcCompute := by decide

theorem test_word_pack32 : decode 0b00000000000000000000000000010000#32 = .ok .pack32 := by decide

theorem test_word_unpack32 : decode 0b00000000000000000000000000010001#32 = .ok .unpack32 := by decide

theorem test_word_frameChunk : decode 0b00000000000000000000000000100000#32 = .ok .frameChunk := by decide

theorem test_word_encode : decode 0b00000000000000000000000000110000#32 = .ok .encode := by decide

theorem test_word_decode : decode 0b00000000000000000000000000110001#32 = .ok .decode := by decide

/-- The words beside the map are rejected by reason (30_encoding.md R116). -/
theorem test_word_rejected :
    decode 0b00000000000000000000000000010010#32 = .error (.reservedOpcode 0x12#8) ∧
    decode 0b10000000000000000000000000000001#32 = .error .reservedBits := by decide

/-- As the opcode table numbers a word; a number above 32 bits is no command word. -/
theorem test_table_word :
    decodeTableWord 32 0x31 = some .decode ∧ decodeTableWord 32 0x05 = none ∧
    decodeTableWord 8 0x31 = some .decode ∧ decodeTableWord 64 0x100000031 = none := by decide

/-! ### The commands, by vector -/

/-- V-CRC-1. -/
theorem test_crcInit : endsIn (exec .crcInit { State.reset with crcAcc := 0x12345678#32 }) (fun t =>
    t.crcAcc == 0xFFFFFFFF#32 && t.crcResult == 0#32 && t.statusWord == 0x06#32 && t.outLen == 0#32) = true := by
  decide +kernel

/-- V-CRC-2. -/
theorem test_crcByte : endsIn (exec .crcByte { State.reset with data := 0x00000061#32 }) (fun t =>
    t.crcAcc == 0x174841BC#32 && t.crcResult == 0xE8B7BE43#32) = true := by decide +kernel

/-- V-CRC-3: DATA[31:8] is ignored. -/
theorem test_crcByte_high_bits :
    endsIn (exec .crcByte { State.reset with crcAcc := 0x12345678#32, data := 0xFFFFFFAB#32 }) (fun t =>
      t.crcAcc == 0x1FC8B738#32 && t.data == 0xFFFFFFAB#32) = true := by decide +kernel

/-- V-CRC-5. -/
theorem test_crcUpdate : endsIn (exec .crcUpdate (withArgs 0#32 9#32 0#32 (loaded 0 digits))) (fun t =>
    t.crcAcc == 0x340BC6D9#32 && t.crcResult == 0xCBF43926#32) = true := by decide +kernel

/-- V-CRC-9: the sum 2^32 + 1 is not wrapped to 1. -/
theorem test_crcUpdate_no_wrap : endsIn (exec .crcUpdate (withArgs 0xFFFFFFFF#32 2#32 0#32 State.reset)) (fun t =>
    t.statusWord == 0x22#32 && t.crcAcc == 0xFFFFFFFF#32) = true := by decide +kernel

/-- V-CRC-11. -/
theorem test_crcCompute : endsIn
    (exec .crcCompute { withArgs 0#32 4#32 0#32 (loaded 0 tagIEND) with crcAcc := 0x12345678#32 }) (fun t =>
      t.data == 0xAE426082#32 && t.crcAcc == 0x51BD9F7D#32) = true := by decide +kernel

/-- V-CRC-13. -/
theorem test_crcCompute_range :
    endsIn (exec .crcCompute { withArgs 200#32 100#32 0#32 State.reset with data := 7#32 }) (fun t =>
      t.statusWord == 0x22#32 && t.data == 7#32) = true := by decide +kernel

/-- V-PK-2: an unaligned destination is legal. -/
theorem test_pack32 : endsIn (exec .pack32 { State.reset with data := 0xAE426082#32, dstAddr := 5#32 }) (fun t =>
    outBytes t 5 4 == [0xAE#8, 0x42#8, 0x60#8, 0x82#8] && t.outLen == 4#32 && t.statusWord == 0x06#32) = true := by
  decide +kernel

/-- V-PK-5: no wrap. -/
theorem test_pack32_no_wrap : endsIn (exec .pack32 { State.reset with dstAddr := 0xFFFFFFFE#32 }) (fun t =>
    t.statusWord == 0x32#32 && t.outBuf == []) = true := by decide +kernel

/-- V-PK-8. -/
theorem test_unpack32 : endsIn (exec .unpack32 (withArgs 252#32 0#32 0#32 (loaded 252 tagIDAT))) (fun t =>
    t.data == 0x49444154#32 && t.outLen == 0#32) = true := by decide +kernel

/-- V-PK-9. -/
theorem test_unpack32_range : endsIn (exec .unpack32 { State.reset with srcAddr := 253#32, data := 5#32 }) (fun t =>
    t.statusWord == 0x22#32 && t.data == 5#32) = true := by decide +kernel

/-- V-FR-3, with CRC_ACC untouched. -/
theorem test_frameChunk : endsIn (exec .frameChunk { withArgs 0#32 3#32 0#32 (loaded 0 [0x41#8, 0x42#8, 0x43#8]) with
      typeTag := 0x49444154#32, crcAcc := 0x12345678#32 }) (fun t =>
    outBytes t 0 15 == [0x00#8, 0x00#8, 0x00#8, 0x03#8, 0x49#8, 0x44#8, 0x41#8, 0x54#8, 0x41#8, 0x42#8, 0x43#8,
      0xA5#8, 0x08#8, 0x94#8, 0xF8#8] &&
    t.outLen == 15#32 && t.statusWord == 0x06#32 && t.crcAcc == 0x12345678#32) = true := by decide +kernel

/-- V-FR-8: both ranges are bad, and the source is checked first. -/
theorem test_frameChunk_priority : endsIn (exec .frameChunk (withArgs 250#32 10#32 250#32 State.reset)) (fun t =>
    t.statusWord == 0x22#32 && t.outLen == 0#32 && t.outBuf == []) = true := by decide +kernel

/-- V-ENC-1. -/
theorem test_encode : endsIn (exec .encode (withArgs 0#32 13#32 0#32 (loaded 0 hello))) (fun t =>
    outBytes t 0 70 == helloBox && t.outLen == 70#32 && t.statusWord == 0x06#32) = true := by decide +kernel

/-- V-ENC-7: the empty payload fits to the last byte of OUT. -/
theorem test_encode_last_fit : endsIn (exec .encode (withArgs 0#32 0#32 199#32 State.reset)) (fun t =>
    outBytes t 199 57 == emptyBox && t.statusWord == 0x06#32) = true := by decide +kernel

/-- V-DEC-1. -/
theorem test_decode : endsIn (exec .decode (withArgs 0#32 70#32 128#32 (loaded 0 helloBox))) (fun t =>
    outBytes t 128 13 == hello && t.outLen == 13#32 && t.statusWord == 0x06#32) = true := by decide +kernel

/-- V-DEC-19: the decode failure wins over a destination that could not hold the payload. -/
theorem test_decode_failure_first :
    endsIn (exec .decode (withArgs 0#32 70#32 250#32 (loaded 0 (helloBox.set 0 0x88#8)))) (fun t =>
      t.statusWord == 0x02#32 && t.outLen == 0#32 && t.outBuf == []) = true := by decide +kernel

/-! ### The functions, by vector -/

/-- Section 2.1 of 95_test_vectors.md. -/
theorem test_crc32_values :
    crc32 [] = 0x00000000#32 ∧ crc32 [0x00#8] = 0xD202EF8D#32 ∧ crc32 [0xFF#8] = 0xFF000000#32 ∧
    crc32 digits = 0xCBF43926#32 ∧ crc32 (tagIHDR ++ hdr13) = 0x1F15C489#32 ∧ crc32 hello = 0xEBE6C6E6#32 ∧
    crc32 (tagIDAT ++ hello) = 0xA665CE9E#32 := by decide +kernel

/-- Section 2.1: the byte step. -/
theorem test_crcStep_values :
    crcStep 0x00000000#32 0x01#8 = 0x77073096#32 ∧ crcStep 0x00000000#32 0x80#8 = 0xEDB88320#32 ∧
    crcStep 0xFFFFFFFF#32 0x80#8 = 0xC0459352#32 ∧ crcStep 0x12345678#32 0xAB#8 = 0x1FC8B738#32 := by decide +kernel

/-- V-DEC-13: hlen = 2^32 - 1, the sum not wrapped. -/
theorem test_decode_no_wrap :
    decodeContainer (sig ++ [0xFF#8, 0xFF#8, 0xFF#8, 0xFF#8] ++ tagIHDR) = none := by decide +kernel

/-- V-DEC-14: a header-chunk of length 0, its checksum not checked. -/
theorem test_decode_empty_header :
    decodeContainer (sig ++ [0x00#8, 0x00#8, 0x00#8, 0x00#8, 0x49#8, 0x48#8, 0x44#8, 0x52#8, 0x00#8, 0x00#8, 0x00#8,
      0x00#8] ++ [0x00#8, 0x00#8, 0x00#8, 0x03#8, 0x49#8, 0x44#8, 0x41#8, 0x54#8, 0x41#8, 0x42#8, 0x43#8, 0xA5#8,
      0x08#8, 0x94#8, 0xF8#8]) = some [0x41#8, 0x42#8, 0x43#8] := by decide +kernel

/-- V-DEC-15: the tag of the data-chunk is not compared with IDAT. -/
theorem test_decode_other_tag :
    decodeContainer (helloHead ++ [0x00#8, 0x00#8, 0x00#8, 0x02#8, 0x61#8, 0x62#8, 0x63#8, 0x64#8, 0x58#8, 0x59#8,
      0x97#8, 0x00#8, 0x5C#8, 0x6C#8]) = some [0x58#8, 0x59#8] := by decide +kernel

/-- V-DEC-16: a checksum over length, type and data is rejected (90_conflicts.md C1). -/
theorem test_decode_wrong_cover :
    decodeContainer (helloHead ++ [0x00#8, 0x00#8, 0x00#8, 0x0D#8, 0x49#8, 0x44#8, 0x41#8, 0x54#8] ++ hello ++
      [0xDD#8, 0x25#8, 0x35#8, 0x43#8]) = none := by decide +kernel

/-- V-SRC-5 and 44_container.md R231: a header length off by one, either way, shifts the reads and fails. -/
theorem test_decode_header_length :
    decodeContainer (helloBox.set 11 0x0C#8) = none ∧ decodeContainer (helloBox.set 11 0x0E#8) = none := by
  decide +kernel

/-! ### The host port, the resets and the step -/

/-- V-HP-4: the 0x30 in bits 7:0 does not make the word ENCODE. -/
theorem test_port_illegal_word : endsIn (step (issue 0x00000130#32 State.reset)) (fun t =>
    t.statusWord == 0x12#32 && t.cmd == 0x00000130#32) = true := by decide +kernel

/-- V-HP-6: a write of all ones to STATUS clears DONE and OVR only. -/
theorem test_port_ack :
    (hostAccess ⟨.reg, 0x08, .write32 0xFFFFFFFF#32⟩
      { State.reset with done := true, pass := true, ovr := true }).statusWord = 0x04#32 := by decide +kernel

/-- V-HP-9: an 8-bit read of STATUS, and a 32-bit read of IN[0]. -/
theorem test_port_bus_error :
    (hostAccess ⟨.reg, 0x08, .read8⟩ State.reset).answers = [.busError] ∧
    (hostAccess ⟨.inBuf, 0, .read32⟩ State.reset).answers = [.busError] := by decide +kernel

/-- V-HP-11: SRC_LEN is dropped while BUSY = 1. -/
theorem test_port_overrun :
    let t := hostAccess ⟨.reg, 0x14, .write32 1#32⟩ (issue 0x30#32 { State.reset with srcLen := 13#32 })
    t.srcLen = 13#32 ∧ t.ovr = true := by decide +kernel

/-- V-HP-12: a soft reset while BUSY = 1; OUT below DST_ADDR and IN are kept. -/
theorem test_port_soft_reset :
    let s := issue 0x30#32 { loaded 0 hello with outBuf := [(3, 0xAA#8), (4, 0xBB#8)], dstAddr := 4#32 }
    let t := hostAccess ⟨.reg, 0x04, .write32 2#32⟩ s
    t.busy = false ∧ t.done = false ∧ t.dstAddr = 0#32 ∧ t.inBuf = s.inBuf ∧ t.outBuf = [(3, 0xAA#8)] := by
  decide +kernel

/-- V-HP-13: IN_SIZE is read-only, and the write sets no OVR. -/
theorem test_port_read_only :
    let t := hostAccess ⟨.reg, 0x30, .write32 5#32⟩ State.reset
    t.cfg.inSize = 256#32 ∧ t.ovr = false := by decide +kernel

/-- A placed word is the next step's, whatever was scheduled; ENCODE straight after reset has the empty payload. -/
theorem test_fetch_word : endsIn (step (State.reset.withFetchWord 32 0x30)) (fun t =>
    t.statusWord == 0x06#32 && t.outLen == 57#32 && t.cmd == 0x30#32) = true := by decide +kernel

/-- The register offsets of 30_encoding.md R119, both ways. -/
theorem test_reg_offsets :
    [Reg.id, .ctrl, .status, .cmd, .srcAddr, .srcLen, .dstAddr, .outLen, .data, .typeTag, .crcAcc, .crcResult, .inSize,
      .outSize, .reserved38, .reserved3C].all (fun r => Reg.ofOffset r.offset == some r) = true := by decide

/-- The first lines of P1, `args 0, 13, 0` and `ENCODE`, and `ack`, as the transactions printed there. -/
theorem test_host_lines :
    programOps [.args 0#32 13#32 0#32, .command .encode, .ack] =
      [.access ⟨.reg, 0x10, .write32 0#32⟩, .access ⟨.reg, 0x14, .write32 13#32⟩, .access ⟨.reg, 0x18, .write32 0#32⟩,
        .access ⟨.reg, 0x0C, .write32 0x00000030#32⟩, .access ⟨.reg, 0x08, .write32 0x0000000A#32⟩] := by decide

/-- The outcome of a play is a next one that passes the check. -/
def playsTo (r : Host.Outcome HostRun Fault Refusal) (check : HostRun → Bool) : Bool :=
  match r with
  | .next t => check t
  | .fault _ => false
  | .refused _ => false

/-- `wait` with BUSY = 0 reads STATUS once and is over (30_encoding.md R121). -/
theorem test_host_wait_idle :
    playsTo ((HostRun.start [.wait] State.reset).play [.host, .host, .host]) (fun r =>
      r.past == [.host ⟨.reg, 0x08, .read32⟩] && r.place == 2) = true := by decide

/-- `wait` with BUSY = 1 reads again until the completion: two reads before it, one after. -/
theorem test_host_wait_busy :
    playsTo ((HostRun.start [.wait] (issue 0x01#32 State.reset)).play
        [.host, .host, .host, .host, .engine, .host, .host]) (fun r =>
      r.past == [.host ⟨.reg, 0x08, .read32⟩, .completion, .host ⟨.reg, 0x08, .read32⟩,
        .host ⟨.reg, 0x08, .read32⟩] && r.place == 2) = true := by decide

/-- A pair of P2's `copy`: the byte written to IN is the byte the read of OUT gave. -/
theorem test_host_copy :
    playsTo ((HostRun.start [.copy 0 1 100] { State.reset with outBuf := [(0, 0x89#8)] }).play [.host, .host]) (fun r =>
      r.past == [.host ⟨.inBuf, 100, .write8 0x89#8⟩, .host ⟨.outBuf, 0, .read8⟩] &&
        r.block.inBuf == [(100, 0x89#8)]) = true := by decide

/-- A label and a branch back to it on bit 0 of the last read, no transaction of either. -/
theorem test_host_branch :
    playsTo ((HostRun.start [.label 7, .rd .inSize, .gotoIf (.bit 8) 7] State.reset).play [.host, .host, .host]) (fun r =>
      r.place == 0 && r.past.length == 1) = true := by decide

/-- P4's lines from DECODE on; V-DEC-9 in IN, `args 0, 70, 0` done. -/
def raceP4 : HostRun :=
  HostRun.start [.command .decode, .wr .srcLen 5#32, .wait, .rd .status, .rd .srcLen]
    (withArgs 0#32 70#32 0#32 (loaded 0 (helloBox.set 41 0x49#8)))

/-- P4, the completion after the SRC_LEN write: the write is dropped; STATUS reads 0x0A and SRC_LEN 70. -/
theorem test_host_P4_completion_after :
    playsTo (raceP4.play [.host, .host, .engine, .host, .host, .host, .host]) (fun r =>
      r.place == 6 && r.block.answers.take 2 == [.data32 70#32, .data32 0x0000000A#32]) = true := by decide +kernel

/-- P4, the completion before the SRC_LEN write: the write takes effect; STATUS reads 0x02 and SRC_LEN 5. -/
theorem test_host_P4_completion_before :
    playsTo (raceP4.play [.host, .engine, .host, .host, .host, .host, .host]) (fun r =>
      r.place == 6 && r.block.answers.take 2 == [.data32 5#32, .data32 0x00000002#32]) = true := by decide +kernel

/-! ### Witnesses: the hypotheses of each statement are met, each clause at the edge of its range -/

/-- An idle block with SRC_ADDR + SRC_LEN = IN_SIZE and DST_ADDR + 4 = OUT_SIZE. -/
def idle : State := withArgs 250#32 6#32 252#32 (loaded 0 helloBox)

/-- The same with a word issued. -/
def busy (w : Word) : State := issue w idle

/-- The block with these events to come. -/
def next (es : List Event) (s : State) : State := { s with schedule := es }

theorem test_witness_IllegalWordEndsInErrIllegal :
    ((busy 0x00000130#32).engineMoves = true ∧ (busy 0x00000130#32).pend = some 0x00000130#32 ∧
      (0x00000130#32).extractLsb' 8 24 ≠ 0#24) ∧
    ((next [.completion] (busy 0x12#32)).engineMoves = true ∧ (next [.completion] (busy 0x12#32)).pend = some 0x12#32 ∧
      (0x12#32).extractLsb' 0 8 ∉ [0x01#8, 0x02#8, 0x03#8, 0x04#8, 0x10#8, 0x11#8, 0x20#8, 0x30#8, 0x31#8]) := by
  decide

theorem test_witness_StepRunsTheDecodedCommand :
    ((busy 0x31#32).engineMoves = true ∧ (busy 0x31#32).pend = some 0x31#32 ∧ decode 0x31#32 = .ok .decode ∧
      Instr.decode.wf = true) ∧
    (next [.completion, .hardReset] (busy 0x01#32)).engineMoves = true := by decide

theorem test_witness_FetchedWordRunsNext : decode 0x31#32 = .ok .decode := by decide

/-- A busy state that meets the invariant, IN not empty. -/
theorem test_witness_Inv : (busy 0x31#32).Inv where
  cfgWf := by decide
  busyIffPending := by decide
  pendingIsCmd := by intro w h; exact Option.some.inj h
  busyQuiet := by decide
  errorFails := by decide
  errorCode := by decide
  inWf := by decide +kernel
  inWithin := by decide +kernel
  outWf := by decide
  outWithin := by decide
  outLenFits := by decide
  inDrawn := by decide
  outDrawn := by decide
  abortsDrawn := by intro r h; cases h

/-- A step from it that goes on, for EveryStepKeepsTheInvariant and the other statements about a next state. -/
theorem test_witness_step : step (busy 0x31#32) = .next (nextOf (step (busy 0x31#32))) :=
  eq_next_of_endsIn (check := fun _ => true) (by decide +kernel)

theorem test_witness_PendingCommandCompletes :
    (busy 0x31#32).Inv ∧ (next [.host ⟨.reg, 0x08, .read32⟩] (busy 0x31#32)).pend ≠ none :=
  ⟨test_witness_Inv, by decide⟩

/-- The two ends of the sizes. -/
theorem test_witness_ResetMeetsTheInvariant :
    Config.wf { inSize := 1#32, outSize := 1#32 } = true ∧
    Config.wf { inSize := 0xFFFFFFFF#32, outSize := 0xFFFFFFFF#32 } = true := by decide

/-- The last legal and the first illegal access of each space. -/
theorem test_witness_IllegalAccessIsABusError :
    Access.legal ⟨.reg, 0x3C, .read32⟩ idle.cfg = true ∧ Access.legal ⟨.reg, 0x40, .read32⟩ idle.cfg = false ∧
    Access.legal ⟨.reg, 0x3E, .write32 0#32⟩ idle.cfg = false ∧ Access.legal ⟨.reg, 0x00, .write8 0#8⟩ idle.cfg = false ∧
    Access.legal ⟨.inBuf, 255, .write8 0#8⟩ idle.cfg = true ∧ Access.legal ⟨.inBuf, 256, .read8⟩ idle.cfg = false ∧
    Access.legal ⟨.outBuf, 255, .read8⟩ idle.cfg = true ∧ Access.legal ⟨.outBuf, 256, .write8 0#8⟩ idle.cfg = false := by
  decide

theorem test_witness_ReadsHaveNoSideEffect :
    (Access.mk .outBuf 255 .read8).transfer = .read8 ∧ (Access.mk .reg 0x28 .read32).transfer = .read32 := by decide

theorem test_witness_ReadsAnswerTheirValues :
    255 < idle.cfg.inSize.toNat ∧ 255 < idle.cfg.outSize.toNat ∧ idle.busy = false ∧ (busy 0x31#32).busy = true := by
  decide

theorem test_witness_StatusAndCtrlWrites : (0xFFFFFFFD#32).getLsbD 1 = false := by decide

theorem test_witness_CmdWriteIssues : idle.busy = false := by decide

theorem test_witness_IdleWritesTakeEffect : idle.busy = false ∧ 255 < idle.cfg.inSize.toNat := by decide

theorem test_witness_WritesWhileBusyAreDropped :
    (busy 0x31#32).busy = true ∧ 255 < (busy 0x31#32).cfg.inSize.toNat ∧ 255 < (busy 0x31#32).cfg.outSize.toNat := by
  decide

theorem test_witness_ReadOnlyWritesAreIgnored : 255 < idle.cfg.outSize.toNat := by decide

theorem test_witness_RepeatedWrites :
    ((∃ w : Word, (Access.mk .reg 0x28 (.write32 5#32)).transfer = .write32 w) ∧
      (0x28 : Nat) ∈ [(0x08 : Nat), 0x10, 0x14, 0x18, 0x20, 0x24, 0x28]) ∧
    ((∃ b : Byte, (Access.mk .inBuf 255 (.write8 5#8)).transfer = .write8 b) ∧ 255 < idle.cfg.inSize.toNat) ∧
    idle.busy = false := ⟨⟨⟨_, rfl⟩, by decide⟩, ⟨⟨_, rfl⟩, by decide⟩, by decide⟩

/-- OVR rises by a CMD write and by a write of IN[255], and falls by a STATUS write and by a hardware reset. -/
theorem test_witness_OverrunRisesAndFallsAsStated :
    (busy 0x31#32).ovr = false ∧
    endsIn (step (next [.host ⟨.reg, 0x0C, .write32 0x30#32⟩] (busy 0x31#32))) (fun t => t.ovr) = true ∧
    endsIn (step (next [.host ⟨.inBuf, 255, .write8 0x30#8⟩] (busy 0x31#32))) (fun t => t.ovr) = true ∧
    endsIn (step (next [.host ⟨.reg, 0x08, .write32 8#32⟩] { idle with ovr := true })) (fun t => !t.ovr) = true ∧
    endsIn (step (next [.hardReset] { idle with ovr := true })) (fun t => !t.ovr) = true := by decide

/-- BUSY rises by an issue and falls by a completion, a soft and a hardware reset. -/
theorem test_witness_BusyRisesByIssueAndFallsByCompletion :
    endsIn (step (next [.host ⟨.reg, 0x0C, .write32 0x30#32⟩] idle)) (fun t => t.busy) = true ∧
    endsIn (step (busy 0x01#32)) (fun t => !t.busy) = true ∧
    endsIn (step (next [.host ⟨.reg, 0x04, .write32 2#32⟩] (busy 0x01#32))) (fun t => !t.busy) = true ∧
    endsIn (step (next [.hardReset] (busy 0x01#32))) (fun t => !t.busy) = true := by decide

/-- IN[255] changes by a host write, from a stored byte to another. -/
theorem test_witness_InChangesOnlyByHostWriteOrReset :
    endsIn (step (next [.host ⟨.inBuf, 255, .write8 1#8⟩] (loaded 255 [0#8])))
      (fun t => t.inByte 255 != (loaded 255 [0#8]).inByte 255) = true := by decide +kernel

/-- A byte plus one is another byte. -/
theorem succ_ne (x : Byte) : x ≠ x + 1#8 := by
  intro h
  have e := congrArg BitVec.toNat h
  have := x.isLt
  simp only [BitVec.toNat_add, BitVec.toNat_ofNat] at e
  omega

/-- IN[0] and OUT[0] change by a hardware reset, whatever the free values are. -/
theorem test_witness_hardReset_changes :
    let s := next [.hardReset] { State.reset with
      inBuf := [(0, Config.freeIn 1 0 + 1#8)], outBuf := [(0, Config.freeOut 1 0 + 1#8)] }
    step s = .next (nextOf (step s)) ∧ (nextOf (step s)).inByte 0 ≠ s.inByte 0 ∧
      (nextOf (step s)).outByte 0 ≠ s.outByte 0 :=
  ⟨rfl, succ_ne _, succ_ne _⟩

/-- OUT[252] changes by PACK32, from a stored byte to another. -/
theorem test_witness_OutChangesOnlyByCommandOrReset :
    endsIn (step { busy 0x10#32 with outBuf := [(252, 7#8)] }) (fun t => t.outByte 252 != 7#8) = true := by
  decide +kernel

/-- OUT[252], at DST_ADDR, changes by a soft reset that aborts, whatever the free value is. -/
theorem test_witness_abort_changes :
    let s := next [.host ⟨.reg, 0x04, .write32 2#32⟩] { busy 0x10#32 with
      outBuf := [(252, Config.freeOut 1 252 + 1#8)] }
    s.busy = true ∧ s.dstAddr.toNat = 252 ∧ step s = .next (nextOf (step s)) ∧
      (nextOf (step s)).outByte 252 ≠ s.outByte 252 :=
  ⟨rfl, rfl, rfl, succ_ne _⟩

theorem test_witness_InputsStandWhileBusy :
    let s := next [.host ⟨.reg, 0x14, .write32 5#32⟩] (busy 0x31#32)
    s.busy = true ∧ s.engineMoves = false ∧ step s = .next (nextOf (step s)) ∧
      ∀ e, s.nextEvent = some e → e.resets = false :=
  ⟨rfl, rfl, rfl, by intro e h; cases h; rfl⟩

/-- The other clause of InputsStandWhileBusy: the engine moves. -/
theorem test_witness_InputsStandWhileBusy_engine :
    (busy 0x31#32).busy = true ∧ (busy 0x31#32).engineMoves = true ∧ (busy 0x31#32).nextEvent = none := by decide

theorem test_witness_HostCannotDisturbAPendingCommand :
    let xs : List Access := [⟨.reg, 0x14, .write32 5#32⟩, ⟨.reg, 0x08, .read32⟩, ⟨.reg, 0x04, .write32 1#32⟩]
    let s := next (xs.map Event.host ++ .completion :: [.hardReset]) (busy 0x01#32)
    s.busy = true ∧ s.pend = some 0x01#32 ∧ decode 0x01#32 = .ok .crcInit ∧
      (∀ x ∈ xs, (Event.host x).resets = false) ∧ s.schedule = xs.map Event.host ++ .completion :: [.hardReset] ∧
      exec .crcInit s = .next (nextOf (exec .crcInit s)) :=
  ⟨rfl, rfl, by decide, by decide, rfl, rfl⟩

theorem test_witness_HardwareResetValues :
    (next [.hardReset, .completion] (busy 0x31#32)).schedule = .hardReset :: [.completion] := by decide

/-- A soft reset with bit 0 clear and set; idle and busy; an offset below DST_ADDR and DST_ADDR itself. -/
theorem test_witness_SoftResetKeepsAndClears :
    (2#32).getLsbD 1 = true ∧ (3#32).getLsbD 1 = true ∧ idle.busy = false ∧ (busy 0x31#32).busy = true ∧
    251 < (busy 0x31#32).dstAddr.toNat ∧ (busy 0x31#32).dstAddr.toNat ≤ 252 := by decide

theorem test_witness_InterruptRisesAndFalls :
    exec .crcInit idle = .next (nextOf (exec .crcInit idle)) ∧
    ((busy 0x05#32).engineMoves = true ∧ (busy 0x05#32).pend = some 0x05#32 ∧
      step (busy 0x05#32) = .next (nextOf (step (busy 0x05#32)))) ∧
    (1#32).getLsbD 1 = false ∧ (2#32).getLsbD 1 = true ∧ idle.busy = false :=
  ⟨rfl, ⟨rfl, rfl, rfl⟩, by decide, by decide, rfl⟩

/-- The last source range that fits and the first that does not; an empty range at the end of IN and one past it. -/
theorem test_witness_CrcUpdateFoldsTheSource :
    idle.srcFits idle.srcLen.toNat ∧ (¬ { idle with srcLen := 7#32 }.srcFits 7) ∧
    (withArgs 256#32 0#32 0#32 State.reset).srcAddr.toNat ≤ State.reset.cfg.inSize.toNat ∧
    (withArgs 257#32 0#32 0#32 State.reset).srcAddr.toNat > State.reset.cfg.inSize.toNat := by decide

theorem test_witness_CrcComputeChecksumsTheSource :
    idle.srcFits idle.srcLen.toNat ∧ ¬ { idle with srcAddr := 251#32 }.srcFits 6 := by decide

theorem test_witness_Pack32WritesDataBigEndian : idle.dstFits 4 ∧ ¬ { idle with dstAddr := 253#32 }.dstFits 4 := by
  decide

theorem test_witness_Unpack32ReadsDataBigEndian :
    { idle with srcAddr := 252#32 }.srcFits 4 ∧ ¬ { idle with srcAddr := 253#32 }.srcFits 4 := by decide

/-- V-FR-6, V-FR-7 and V-FR-8. -/
theorem test_witness_FrameChunkWritesTheChunk :
    ((withArgs 256#32 0#32 244#32 State.reset).srcFits 0 ∧ (withArgs 256#32 0#32 244#32 State.reset).dstFits 12) ∧
    ((withArgs 256#32 0#32 245#32 State.reset).srcFits 0 ∧ ¬ (withArgs 256#32 0#32 245#32 State.reset).dstFits 12) ∧
    ¬ (withArgs 250#32 10#32 250#32 State.reset).srcFits 10 := by decide

/-- V-ENC-3, V-ENC-4 and V-ENC-5. -/
theorem test_witness_EncodeWritesTheContainer :
    ((withArgs 0#32 199#32 0#32 State.reset).srcFits 199 ∧ (withArgs 0#32 199#32 0#32 State.reset).dstFits (57 + 199)) ∧
    ((withArgs 0#32 200#32 0#32 State.reset).srcFits 200 ∧
      ¬ (withArgs 0#32 200#32 0#32 State.reset).dstFits (57 + 200)) ∧
    ¬ (withArgs 250#32 7#32 0#32 State.reset).srcFits 7 := by decide

/-- The container of "Hello, world!" at the start of IN, its payload to go to DST_ADDR. -/
def decodeAt (dst : Word) : State := withArgs 0#32 70#32 dst (loaded 0 helloBox)

/-- V-DEC-1 and V-DEC-18, at the last destination that fits and the first that does not. -/
theorem test_witness_DecodeWritesThePayloadOrFails :
    (decodeAt 243#32).srcFits 70 ∧ decodeContainer ((decodeAt 243#32).inBytes 0 70) = some hello ∧
    (decodeAt 243#32).dstFits hello.length ∧ (¬ (decodeAt 244#32).dstFits hello.length) ∧
    decodeContainer ((decodeAt 243#32).inBytes 0 57) = none := by decide +kernel

/-- V-DEC-20: a container that leaves IN. -/
theorem test_witness_DecodeWritesThePayloadOrFails_range :
    ¬ (withArgs 200#32 70#32 0#32 State.reset).srcFits 70 := by decide

theorem test_witness_SourceRangeErrors :
    (withArgs 250#32 7#32 0#32 State.reset).srcAddr.toNat + 7 > State.reset.cfg.inSize.toNat ∧
    (withArgs 253#32 0#32 0#32 State.reset).srcAddr.toNat + 4 > State.reset.cfg.inSize.toNat := by decide

/-- Each clause at the first range that leaves the buffer, the source in and out of range. -/
theorem test_witness_DestinationRangeErrorsAndPriority :
    (withArgs 0#32 0#32 253#32 State.reset).dstAddr.toNat + 4 > State.reset.cfg.outSize.toNat ∧
    (withArgs 0#32 0#32 245#32 State.reset).dstAddr.toNat + 12 + 0 > State.reset.cfg.outSize.toNat ∧
    (withArgs 0#32 0#32 200#32 State.reset).dstAddr.toNat + 57 + 0 > State.reset.cfg.outSize.toNat ∧
    (withArgs 187#32 70#32 0#32 State.reset).srcAddr.toNat + 70 > State.reset.cfg.inSize.toNat ∧
    ((decodeAt 244#32).srcAddr.toNat + 70 ≤ (decodeAt 244#32).cfg.inSize.toNat ∧
      decodeContainer ((decodeAt 244#32).inBytes 0 70) = some hello ∧
      (decodeAt 244#32).dstAddr.toNat + hello.length > (decodeAt 244#32).cfg.outSize.toNat) ∧
    decodeContainer ((withArgs 0#32 0#32 250#32 State.reset).inBytes 0 0) = none := by decide +kernel

/-- A pending word that is no command. -/
theorem test_witness_DestinationRangeErrorsAndPriority_illegal :
    (busy 0x05#32).pend = some 0x05#32 ∧ ∀ i, decode 0x05#32 ≠ .ok i := ⟨rfl, by intro i h; cases h⟩

theorem test_witness_CommandsKeepWhatTheyDoNotWrite :
    exec .pack32 idle = .next (nextOf (exec .pack32 idle)) := rfl

/-- Two states that agree on what DECODE reads and on nothing else: OUT, DATA, TYPE, CRC_ACC and CMD differ. -/
theorem test_witness_CommandsReadOnlyTheirOperands :
    let s := decodeAt 243#32
    let s' := { decodeAt 243#32 with
      outBuf := [(0, 1#8)], data := 1#32, typeTag := 1#32, crcAcc := 1#32, cmd := 1#32, ctrlIE := true }
    exec .decode s = .next (nextOf (exec .decode s)) ∧ s'.cfg = s.cfg ∧ s'.srcAddr = s.srcAddr ∧
      (∀ a, s'.inByte a = s.inByte a) ∧ s'.srcLen = s.srcLen ∧ s'.dstAddr = s.dstAddr :=
  ⟨eq_next_of_endsIn (check := fun _ => true) (by decide +kernel), rfl, rfl, fun _ => rfl, rfl, rfl⟩

/-- The bytes beside PACK32's output. -/
theorem test_witness_OutputsStayInTheirRange :
    Instr.pack32 ∈ [Instr.pack32, .frameChunk, .encode, .decode] ∧ 251 < idle.dstAddr.toNat ∧
    idle.dstAddr.toNat + (nextOf (exec .pack32 idle)).outLen.toNat ≤ 256 := by decide

theorem test_witness_CrcDetectsEverySingleBitError : 12 < hello.length ∧ 7 < 8 := by decide

theorem test_witness_BigEndianConversionsAreInverse : tagIEND.length = 4 := by decide

/-- PACK32 to OUT[252..256), the four bytes copied to IN[252..256), UNPACK32; and the other way round. -/
theorem test_witness_PackThenUnpackReturnsData :
    let s := { idle with data := 0xAE426082#32 }
    let u := withArgs 252#32 0#32 252#32 (loaded 252 [0xAE#8, 0x42#8, 0x60#8, 0x82#8])
    (s.dstFits 4 ∧ exec .pack32 s = .next (nextOf (exec .pack32 s)) ∧ u.srcFits 4 ∧
      (∀ k < 4, u.inByte (u.srcAddr.toNat + k) = (nextOf (exec .pack32 s)).outByte (s.dstAddr.toNat + k)) ∧
      exec .unpack32 u = .next (nextOf (exec .unpack32 u))) ∧
    (nextOf (exec .unpack32 u)).dstFits 4 :=
  ⟨⟨by decide, rfl, by decide, by decide +kernel, rfl⟩, by decide⟩

theorem test_witness_ChunkLayout : tagIDAT.length = 4 ∧ hello.length < 2 ^ 32 := by decide

theorem test_witness_DecodeContainerInvertsEncodeContainer :
    ([] : List Byte).length < 2 ^ 32 ∧ hello.length < 2 ^ 32 := by decide

/-- P1 and P2 of 95_test_vectors.md: ENCODE, the 70 bytes copied to IN[100..170), DECODE to OUT[128..). -/
theorem test_witness_EncodeCopyDecodeReturnsThePayload :
    let s := withArgs 0#32 13#32 0#32 (loaded 0 hello)
    let t := nextOf (exec .encode s)
    let u := withArgs 100#32 70#32 128#32 (loaded 100 helloBox)
    s.srcFits 13 ∧ s.dstFits (57 + 13) ∧ exec .encode s = .next t ∧ u.srcLen = t.outLen ∧ u.srcFits 70 ∧
      u.dstFits 13 ∧ ∀ k < t.outLen.toNat, u.inByte (u.srcAddr.toNat + k) = t.outByte (s.dstAddr.toNat + k) :=
  ⟨by decide, by decide, eq_next_of_endsIn (check := fun _ => true) (by decide +kernel), by decide +kernel, by decide,
    by decide, by decide +kernel⟩

/-- V-DEC-8, and a container shorter than the signature. -/
theorem test_witness_SignatureGate :
    subseq (helloBox.set 0 0x88#8) 0 8 ≠ [0x89#8, 0x50#8, 0x4E#8, 0x47#8, 0x0D#8, 0x0A#8, 0x1A#8, 0x0A#8] ∧
    subseq (helloBox.take 7) 0 8 ≠ [0x89#8, 0x50#8, 0x4E#8, 0x47#8, 0x0D#8, 0x0A#8, 0x1A#8, 0x0A#8] := by decide +kernel

/-- V-SRC-5: the header-chunk's 13 data bytes, its tag and its checksum replaced. -/
theorem test_witness_HeaderContentIsIrrelevant :
    (be32 13#32).length = 4 ∧ tagIHDR.length = 4 ∧ tagIEND.length = 4 ∧ (be32 0#32).length = 4 ∧
    hdr13.length = (unbe32 (be32 13#32)).toNat ∧ (List.replicate 13 0xAA#8).length = hdr13.length := by decide

theorem test_witness_AnyTagsDecode :
    tagIEND.length = 4 ∧ tagIHDR.length = 4 ∧ ([] : List Byte).length < 2 ^ 32 ∧ hello.length < 2 ^ 32 := by decide

theorem test_witness_BytesAfterTheDataChunkAreIrrelevant : decodeContainer helloBox = some hello := by decide +kernel

/-- One byte short of the end of the data-chunk's checksum, and nothing at all. -/
theorem test_witness_TruncatedContainerFails :
    decodeContainer helloBox = some hello ∧ 57 < 32 + (unbe32 (subseq helloBox 8 12)).toNat + hello.length ∧
    0 < 32 + (unbe32 (subseq helloBox 8 12)).toNat + hello.length := by decide +kernel

/-- The first byte of the payload and the last byte of the checksum. -/
theorem test_witness_FlippedPayloadOrChecksumBitFails :
    decodeContainer helloBox = some hello ∧ 57 < helloBox.length ∧
    28 + (unbe32 (subseq helloBox 8 12)).toNat ≤ 41 ∧
    41 < 32 + (unbe32 (subseq helloBox 8 12)).toNat + hello.length ∧
    28 + (unbe32 (subseq helloBox 8 12)).toNat ≤ 57 ∧
    57 < 32 + (unbe32 (subseq helloBox 8 12)).toNat + hello.length := by decide +kernel

end Sys2Proof.Tests
end

section
/-! SUPPORT. The proofs of 00_scope.md: the configuration and the host's record of bus errors under every step, with the
frame of the completion step, and the two conversions between a register and four bytes. -/

namespace Sys2Proof.Machine

variable {s t : State}

/-! ### The configuration and the record of bus errors -/

@[simp] theorem writeCtrl_cfg (w : Word) (s : State) : (writeCtrl w s).cfg = s.cfg := by
  unfold writeCtrl; split <;> simp

@[simp] theorem writeCtrl_busErrors (w : Word) (s : State) : (writeCtrl w s).busErrors = s.busErrors := by
  unfold writeCtrl; split <;> simp

/-! The three ends of a command keep what no command changes (60_exceptions.md R259, R260). -/

theorem raiseError_commandFrame (e : CmdError) (s : State) : CommandFrame s (raiseError e s) := by
  constructor <;> simp

theorem complete_commandFrame (p : Bool) (n : Nat) (d c : Word) (s : State) :
    CommandFrame s (complete p n { s with data := d, crcAcc := c }) := by
  constructor <;> intros <;> rfl

theorem afterOut_commandFrame (s : State) (bytes : List Byte) : CommandFrame s (afterOut s bytes) := by
  constructor <;> intros <;> rfl

/-- The frame of every command, whatever its outcome (30_encoding.md R115). -/
theorem exec_commandFrame {i : Instr} (h : exec i s = .next t) : CommandFrame s t := by
  rcases exec_inversion i s with ⟨e, he⟩ | ⟨p, d, c, he⟩ | ⟨bytes, -, -, he⟩ <;> cases he.symm.trans h
  · exact raiseError_commandFrame e s
  · exact complete_commandFrame p 0 d c s
  · exact afterOut_commandFrame s bytes

/-- The completion step is no host access: with a command, an illegal word or nothing pending, the frame stands. -/
theorem engineStep_commandFrame (h : engineStep s = .next t) : CommandFrame s t := by
  rcases engineStep_inversion s with ⟨-, he⟩ | ⟨w, i, -, -, he⟩ | ⟨w, e, -, -, he⟩
  · cases he.symm.trans h
    constructor <;> intros <;> rfl
  · exact exec_commandFrame (he.symm.trans h)
  · cases he.symm.trans h
    exact raiseError_commandFrame .illegal s

theorem hostAccess_cfg (x : Access) (s : State) : (hostAccess x s).cfg = s.cfg := by
  have h := hostAccess_inversion x s
  generalize hostAccess x s = t at h
  cases h
  case ctrl w _ => simp
  all_goals rfl

/-- A host transaction records itself as a bus error or records nothing (20_memory.md R85). -/
theorem hostAccess_busErrors (x : Access) (s : State) :
    (hostAccess x s).busErrors = s.busErrors ∨ (hostAccess x s).busErrors = x :: s.busErrors := by
  have h := hostAccess_inversion x s
  generalize hostAccess x s = t at h
  cases h
  case illegal => exact .inr rfl
  case ctrl w _ => exact .inl (by simp)
  all_goals exact .inl rfl

/-- Settles O10: the engine and a hardware reset keep the record, a host transaction adds at most itself. -/
theorem stepKeepsConfigAndBusErrors : Obligations.StepKeepsConfigAndBusErrors := by
  intro s t h
  rcases step_inversion h with ⟨-, he⟩ | ⟨x, rest, -, rfl⟩ | ⟨rest, -, rfl⟩
  · have frame := engineStep_commandFrame he
    exact ⟨frame.cfg, [], frame.busErrors, by simp⟩
  · refine ⟨hostAccess_cfg x _, ?_⟩
    rcases hostAccess_busErrors x { s with schedule := rest } with herr | herr
    · exact ⟨[], herr, by simp⟩
    · exact ⟨[x], herr, by simp⟩
  · exact ⟨rfl, [], rfl, by simp⟩

/-! ### The conversions of 00_scope.md R16 -/

/-- `be32` lists the digits of the word in base 2^8, and `BE32` sums them up again. -/
theorem unbe32_be32 (v : Word) : unbe32 (be32 v) = v := by
  apply BitVec.eq_of_toNat_eq
  rw [be32, unbe32_toNat]
  simp only [BitVec.extractLsb'_toNat, Nat.shiftRight_eq_div_pow]
  omega

/-- Each byte of `BE32(s)` is the digit of the sum in base 2^8 that it was put in as. -/
theorem be32_unbe32_four (a b c d : Byte) : be32 (unbe32 [a, b, c, d]) = [a, b, c, d] := by
  have := a.isLt; have := b.isLt; have := c.isLt; have := d.isLt
  simp only [be32, List.cons.injEq, and_true]
  refine ⟨?_, ?_, ?_, ?_⟩ <;> apply BitVec.eq_of_toNat_eq <;>
    rw [BitVec.extractLsb'_toNat, Nat.shiftRight_eq_div_pow, unbe32_toNat] <;> omega

theorem be32_unbe32 {s : List Byte} (h : s.length = 4) : be32 (unbe32 s) = s := by
  obtain ⟨a, b, c, d, rfl⟩ := List.length_eq_four.mp h
  exact be32_unbe32_four a b c d

/-- Settles O49: both ways round, from the digits in base 2^8. -/
theorem bigEndianConversionsAreInverse : Obligations.BigEndianConversionsAreInverse :=
  ⟨fun v => ⟨unbe32_be32 v, rfl⟩, fun _ => be32_unbe32⟩

end Sys2Proof.Machine
end

section
/-! SUPPORT. The proofs of 10_state.md: the invariant of every reachable state, what a read and a write of each register
do, and the life of OVR, BUSY, IN and OUT over one step. -/

namespace Sys2Proof.Machine

variable {s t : State}

/-! ### The invariant

Each operation leaves most fields of the invariant as they are: its lemma takes those from `h` and shows the rest. The
host's side, CTRL_IE, OVR and the operand registers are in no field, so a change of them needs no argument. -/

theorem CmdError.code_toNat_le (e : CmdError) : e.code.toNat ≤ 3 := by
  cases e <;> decide

theorem raiseError_keepsInv (e : CmdError) (h : s.Inv) : (raiseError e s).Inv :=
  { h with
    busyIffPending := rfl, pendingIsCmd := nofun, busyQuiet := nofun, errorFails := fun _ => rfl
    errorCode := e.code_toNat_le, outLenFits := Nat.zero_le _ }

theorem complete_keepsInv {n : Nat} (p : Bool) (hn : n ≤ s.cfg.outSize.toNat) (h : s.Inv) : (complete p n s).Inv :=
  { h with
    busyIffPending := rfl, pendingIsCmd := nofun, busyQuiet := nofun, errorFails := fun he => absurd rfl he
    errorCode := Nat.zero_le _, outLenFits := (Nat.mod_le _ _).trans hn }

theorem afterOut_keepsInv {bytes : List Byte} (hd : s.dstFits bytes.length) (h : s.Inv) : (afterOut s bytes).Inv :=
  complete_keepsInv true ((Nat.le_add_left _ _).trans hd)
    { h with
      outWf := Memory.writeBytes_wf _ _ h.outWf
      outWithin := Memory.writeBytes_within hd h.outWithin }

theorem resetRegisters_keepsInv (h : s.Inv) : (resetRegisters s).Inv :=
  { h with
    busyIffPending := rfl, pendingIsCmd := nofun, busyQuiet := nofun, errorFails := fun _ => rfl
    errorCode := Nat.zero_le _, outLenFits := Nat.zero_le _ }

/-- A draw used up: those already drawn stay below the next. -/
theorem draw_keepsInv (n : Nat) (h : s.Inv) : State.Inv { s with draws := s.draws + n } :=
  { h with
    inDrawn := Nat.lt_add_right n h.inDrawn
    outDrawn := Nat.lt_add_right n h.outDrawn
    abortsDrawn := fun r hr => Nat.lt_add_right n (h.abortsDrawn r hr) }

theorem hardReset_keepsInv (h : s.Inv) : (hardReset s).Inv :=
  { draw_keepsInv 1 (resetRegisters_keepsInv h) with
    inWf := .nil, inWithin := nofun, outWf := .nil, outWithin := nofun
    inDrawn := Nat.lt_succ_self _, outDrawn := Nat.lt_succ_self _, abortsDrawn := nofun }

theorem abortOut_keepsInv (h : s.Inv) : (abortOut s).Inv := by
  cases hb : s.busy
  · rwa [abortOut_of_idle hb]
  · have drawn := draw_keepsInv 1 h
    rw [abortOut_of_busy hb]
    exact { drawn with
      outWf := Memory.below_wf _ h.outWf
      outWithin := Memory.below_within _ h.outWithin
      abortsDrawn := List.forall_mem_cons.mpr ⟨Nat.lt_succ_self _, drawn.abortsDrawn⟩ }

theorem softReset_keepsInv (h : s.Inv) : (softReset s).Inv := resetRegisters_keepsInv (abortOut_keepsInv h)

theorem writeCtrl_keepsInv (w : Word) (h : s.Inv) : (writeCtrl w s).Inv := by
  cases hw : w.getLsbD 1
  · rw [writeCtrl_of_no_reset hw]; exact { h with }
  · rw [writeCtrl_of_reset hw]; exact softReset_keepsInv h

/-- DONE can only fall, and no field asks it to be 1. -/
theorem writeStatus_keepsInv (w : Word) (h : s.Inv) : (writeStatus w s).Inv :=
  { h with
    busyQuiet := fun hb => by
      obtain ⟨hdone, hpass, herr⟩ := h.busyQuiet hb
      exact ⟨by simp [hdone], hpass, herr⟩ }

theorem issue_keepsInv (w : Word) (h : s.Inv) : (issue w s).Inv :=
  { h with
    busyIffPending := rfl, pendingIsCmd := fun _ hw => Option.some.inj hw, busyQuiet := fun _ => ⟨rfl, rfl, rfl⟩
    errorFails := fun _ => rfl, errorCode := Nat.zero_le _ }

theorem hostAccess_keepsInv (x : Access) (h : s.Inv) : (hostAccess x s).Inv := by
  have effect := hostAccess_inversion x s
  generalize hostAccess x s = t at effect
  cases effect with
  | read _ n _ => exact { draw_keepsInv n h with }
  | ctrl w _ => exact { writeCtrl_keepsInv w h with }
  | status w _ => exact { writeStatus_keepsInv w h with }
  | cmd w _ _ => exact { issue_keepsInv w h with }
  | inByte a b _ _ ha =>
    exact { h with inWf := Memory.write_wf a b h.inWf, inWithin := Memory.write_within b ha h.inWithin }
  | illegal | operand | droppedReg | droppedIn | ignored => exact { h with }

theorem exec_keepsInv {i : Instr} (he : exec i s = .next t) (h : s.Inv) : t.Inv := by
  rcases exec_inversion i s with ⟨e, hr⟩ | ⟨p, d, c, hr⟩ | ⟨bytes, -, hd, hr⟩ <;> cases hr.symm.trans he
  · exact raiseError_keepsInv e h
  · exact complete_keepsInv p (Nat.zero_le _) { h with }
  · exact afterOut_keepsInv hd h

theorem engineStep_keepsInv (he : engineStep s = .next t) (h : s.Inv) : t.Inv := by
  rcases engineStep_inversion s with ⟨-, hr⟩ | ⟨w, i, -, -, hr⟩ | ⟨w, e, -, -, hr⟩
  · cases hr.symm.trans he; exact h
  · exact exec_keepsInv (hr.symm.trans he) h
  · cases hr.symm.trans he; exact raiseError_keepsInv .illegal h

/-- Settles O9: by what a step can be, each operation keeping the invariant. -/
theorem everyStepKeepsTheInvariant : Obligations.EveryStepKeepsTheInvariant := by
  intro s t h hstep
  rcases step_inversion hstep with ⟨-, he⟩ | ⟨x, rest, -, rfl⟩ | ⟨rest, -, rfl⟩
  · exact engineStep_keepsInv he { h with }
  · exact hostAccess_keepsInv x { h with }
  · exact hardReset_keepsInv { h with }

/-! ### The words STATUS and CTRL read -/

theorem flagBit_toNat (flag : Bool) {p : Nat} (hp : p < 32) : (flagBit flag p).toNat = 2 ^ p * flag.toNat := by
  have lt : 2 ^ p < 2 ^ 32 := Nat.pow_lt_pow_right (by decide) hp
  cases flag
  · simp [flagBit]
  · simpa [flagBit, Nat.shiftLeft_eq] using lt

/-- A flag set below the lowest bit in use adds its place's value. -/
theorem toNat_or_flagBit (x : Word) (flag : Bool) {p : Nat} (hp : p < 32) (hx : 2 ^ (p + 1) ∣ x.toNat) :
    (x ||| flagBit flag p).toNat = x.toNat + 2 ^ p * flag.toNat := by
  obtain ⟨k, hk⟩ := hx
  have lt : 2 ^ p * flag.toNat < 2 ^ (p + 1) := by
    rw [Nat.pow_succ]; exact Nat.mul_lt_mul_of_pos_left (by cases flag <;> decide) (by positivity)
  rw [BitVec.toNat_or, flagBit_toNat flag hp, hk, Nat.two_pow_add_eq_or_of_lt lt]

theorem statusWord_toNat (s : State) :
    s.statusWord.toNat =
      16 * s.err.toNat + 8 * s.ovr.toNat + 4 * s.pass.toNat + 2 * s.done.toNat + s.busy.toNat := by
  have herr : (s.err.setWidth 32 <<< 4).toNat = 16 * s.err.toNat := by
    have := s.err.isLt
    simp only [BitVec.toNat_shiftLeft, BitVec.toNat_setWidth, Nat.shiftLeft_eq]
    omega
  have hovr := toNat_or_flagBit (s.err.setWidth 32 <<< 4) s.ovr (p := 3) (by decide) (by omega)
  have hpass := toNat_or_flagBit _ s.pass (p := 2) (by decide) (by rw [hovr]; omega)
  have hdone := toNat_or_flagBit _ s.done (p := 1) (by decide) (by rw [hpass]; omega)
  have hbusy := toNat_or_flagBit _ s.busy (p := 0) (by decide) (by rw [hdone]; omega)
  rw [State.statusWord, hbusy]
  omega

/-- Settles O14: every flag lies below ERR and below the flags before it, so that the word is their sum. -/
theorem statusAndCtrlWordLayout : Obligations.StatusAndCtrlWordLayout := fun s =>
  ⟨statusWord_toNat s, by rw [State.ctrlWord, flagBit_toNat _ (by decide), pow_zero, one_mul]⟩

/-! ### What a host transaction does, register by register -/

theorem ofOffset_offset (r : Reg) : Reg.ofOffset r.offset = some r := by cases r <;> rfl

theorem hostAccess_readReg (r : Reg) (s : State) : hostAccess ⟨.reg, r.offset, .read32⟩ s = readReg r s := by
  simp only [hostAccess, ofOffset_offset]

theorem hostAccess_writeReg (r : Reg) (w : Word) (s : State) :
    hostAccess ⟨.reg, r.offset, .write32 w⟩ s = answer .written (writeReg r w s) := by
  simp only [hostAccess, ofOffset_offset]

theorem hostAccess_readIn {a : Nat} (ha : a < s.cfg.inSize.toNat) :
    hostAccess ⟨.inBuf, a, .read8⟩ s = answer (.data8 (s.inByte a)) s := if_pos ha

theorem hostAccess_writeIn {a : Nat} (b : Byte) (ha : a < s.cfg.inSize.toNat) :
    hostAccess ⟨.inBuf, a, .write8 b⟩ s =
      answer .written (unlessBusy s { s with inBuf := s.inBuf.write a b }) := if_pos ha

theorem hostAccess_readOut {a : Nat} (ha : a < s.cfg.outSize.toNat) :
    hostAccess ⟨.outBuf, a, .read8⟩ s = readOut a s := if_pos ha

theorem hostAccess_writeOut {a : Nat} (b : Byte) (ha : a < s.cfg.outSize.toNat) :
    hostAccess ⟨.outBuf, a, .write8 b⟩ s = answer .written s := if_pos ha

theorem readReg_defined {r : Reg} (h : (s.busy && r.unspecifiedWhileBusy) = false) :
    readReg r s = answer (.data32 (s.regValue r)) s := by
  rw [readReg, if_neg (by simp [h])]

theorem readReg_free {r : Reg} (h : (s.busy && r.unspecifiedWhileBusy) = true) :
    readReg r s = answer (.data32 (Config.freeWord s.draws)) (bumpDraws s) := if_pos h

/-- Settles O13: each offset is a register's, and the register is defined or not at BUSY's value. -/
theorem readsAnswerTheirValues : Obligations.ReadsAnswerTheirValues := by
  intro s
  have defined (r : Reg) (h : (s.busy && r.unspecifiedWhileBusy) = false) :
      hostAccess ⟨.reg, r.offset, .read32⟩ s = answer (.data32 (s.regValue r)) s :=
    (hostAccess_readReg r s).trans (readReg_defined h)
  have always (r : Reg) (h : r.unspecifiedWhileBusy = false := by rfl) := defined r (by simp [h])
  refine ⟨?_, fun a => hostAccess_readIn, fun hb => ⟨?_, fun a ha => ?_⟩, fun hb => ⟨?_, fun a ha => ?_⟩⟩
  · simp only [List.forall_mem_cons]
    exact ⟨always .id, always .ctrl, always .status, always .cmd, always .srcAddr, always .srcLen, always .dstAddr,
      always .typeTag, always .inSize, always .outSize, always .reserved38, always .reserved3C, nofun⟩
  · have idle (r : Reg) := defined r (by simp [hb])
    simp only [List.forall_mem_cons]
    exact ⟨idle .outLen, idle .data, idle .crcAcc, idle .crcResult, nofun⟩
  · rw [hostAccess_readOut ha, readOut, if_neg (by simp [hb])]
  · have free (r : Reg) (h : r.unspecifiedWhileBusy = true := by rfl) :=
      (hostAccess_readReg r s).trans (readReg_free (by simp [hb, h]))
    simp only [List.forall_mem_cons]
    exact ⟨free .outLen, free .data, free .crcAcc, free .crcResult, nofun⟩
  · rw [hostAccess_readOut ha, readOut, if_pos hb]; rfl

theorem writeStatus_eq (w : Word) (s : State) :
    writeStatus w s = { s with
      done := if w.getLsbD 1 then false else s.done, ovr := if w.getLsbD 3 then false else s.ovr } := by
  have clear (flag bit : Bool) : (flag && !bit) = if bit then false else flag := by cases bit <;> simp
  rw [writeStatus, clear, clear]

/-- Settles O15: the two writes' own effects, with no look at BUSY. -/
theorem statusAndCtrlWrites : Obligations.StatusAndCtrlWrites := by
  intro s w
  refine ⟨?_, fun hw => ?_⟩
  · rw [← writeStatus_eq]; exact hostAccess_writeReg .status w s
  · rw [← writeCtrl_of_no_reset hw]; exact hostAccess_writeReg .ctrl w s

/-- Settles O17: an idle block takes the write whole; IN by the read of a written byte. -/
theorem idleWritesTakeEffect : Obligations.IdleWritesTakeEffect := by
  intro s w hb
  have taken {t : State} (r : Reg) (h : writeReg r w s = unlessBusy s t := by rfl) :
      hostAccess ⟨.reg, r.offset, .write32 w⟩ s = answer .written t := by
    rw [hostAccess_writeReg, h, unlessBusy_of_idle hb]
  refine ⟨taken .srcAddr, taken .srcLen, taken .dstAddr, taken .data, taken .typeTag, taken .crcAcc, ?_⟩
  intro a b ha
  exact ⟨_, by rw [hostAccess_writeIn b ha, unlessBusy_of_idle hb], rfl, inByte_after_write s a b⟩

/-- Settles O20: no such write reaches the block. -/
theorem readOnlyWritesAreIgnored : Obligations.ReadOnlyWritesAreIgnored := by
  intro s
  have ignored (r : Reg) (h : ∀ w, writeReg r w s = s := by intro w; rfl) (w : Word) :
      hostAccess ⟨.reg, r.offset, .write32 w⟩ s = answer .written s := by
    rw [hostAccess_writeReg, h]
  refine ⟨?_, fun a b => hostAccess_writeOut b⟩
  simp only [List.forall_mem_cons]
  exact ⟨ignored .id, ignored .outLen, ignored .crcResult, ignored .inSize, ignored .outSize, ignored .reserved38,
    ignored .reserved3C, nofun⟩

/-! ### One host transaction and one event -/

/-- The resets are the hardware reset and the soft reset (70_reset_and_hazards.md R280, R282). -/
theorem resets_iff {e : Event} :
    e.resets = true ↔ e = .hardReset ∨ ∃ w : Word, w.getLsbD 1 = true ∧ e = .host ⟨.reg, 0x04, .write32 w⟩ := by
  constructor
  · intro h
    unfold Event.resets at h
    split at h
    · exact .inl rfl
    · exact .inr ⟨_, h, rfl⟩
    · cases h
    · cases h
  · rintro (rfl | ⟨w, hw, rfl⟩)
    · rfl
    · exact hw

theorem step_nextEvent {e : Event} (h : s.nextEvent = some e) :
    step s = runEvent e { s with schedule := s.schedule.tail } := by
  obtain ⟨rest, hs⟩ := List.head?_eq_some_iff.mp h
  rw [step_event hs, hs, List.tail_cons]

theorem nextEvent_of_schedule {e : Event} {rest : List Event} (h : s.schedule = e :: rest) : s.nextEvent = some e := by
  rw [State.nextEvent, h, List.head?_cons]

/-- A CTRL write is a soft reset, by bit 1, or a write of CTRL_IE. -/
theorem writeCtrl_cases (w : Word) (s : State) :
    (w.getLsbD 1 = true ∧ writeCtrl w s = softReset s) ∨
      (w.getLsbD 1 = false ∧ writeCtrl w s = { s with ctrlIE := w.getLsbD 0 }) := by
  cases hw : w.getLsbD 1
  · exact .inr ⟨rfl, writeCtrl_of_no_reset hw s⟩
  · exact .inl ⟨rfl, writeCtrl_of_reset hw s⟩

/-- The engine's move ends what is pending, whatever the word and its outcome. -/
theorem engineStep_completes (h : engineStep s = .next t) :
    (s.pend = none ∧ t = s) ∨ (s.pend ≠ none ∧ t.busy = false ∧ t.done = true ∧ t.pend = none) := by
  rcases engineStep_inversion s with ⟨hp, hr⟩ | ⟨w, i, hp, -, hr⟩ | ⟨w, e, hp, -, hr⟩
  · cases hr.symm.trans h; exact .inl ⟨hp, rfl⟩
  · refine .inr ⟨by simp [hp], ?_⟩
    rcases exec_inversion i s with ⟨_, he⟩ | ⟨_, _, _, he⟩ | ⟨_, -, -, he⟩ <;>
      cases he.symm.trans (hr.symm.trans h) <;> exact ⟨rfl, rfl, rfl⟩
  · cases hr.symm.trans h; exact .inr ⟨by simp [hp], rfl, rfl, rfl⟩

/-! ### OVR -/

/-- The writes that BUSY = 1 drops: of CMD, of an operand register or of a legal IN byte
(70_reset_and_hazards.md R285). -/
def DroppedWhileBusy (c : Config) (x : Access) : Prop :=
  (∃ w : Word, x.transfer = .write32 w ∧ x.space = .reg ∧
    x.offset ∈ [(0x0C : Nat), 0x10, 0x14, 0x18, 0x20, 0x24, 0x28]) ∨
  ∃ b : Byte, x.transfer = .write8 b ∧ x.space = .inBuf ∧ x.offset < c.inSize.toNat

/-- The events that clear OVR: a reset, or a STATUS write with bit 3 set (10_state.md R39). -/
def ClearsOvr (e : Event) : Prop :=
  e.resets = true ∨ ∃ w : Word, w.getLsbD 3 = true ∧ e = .host ⟨.reg, 0x08, .write32 w⟩

/-- While BUSY = 1 a write of CMD or of an operand register is dropped (70_reset_and_hazards.md R285). -/
theorem hostAccess_droppedReg (hb : s.busy = true) {off : Nat} (w : Word)
    (ho : off ∈ [(0x0C : Nat), 0x10, 0x14, 0x18, 0x20, 0x24, 0x28]) :
    hostAccess ⟨.reg, off, .write32 w⟩ s = answer .written (dropWrite s) := by
  have dropped {t : State} (r : Reg) (h : writeReg r w s = unlessBusy s t := by rfl) :
      hostAccess ⟨.reg, r.offset, .write32 w⟩ s = answer .written (dropWrite s) := by
    rw [hostAccess_writeReg, h, unlessBusy_of_busy hb]
  revert ho off
  simp only [List.forall_mem_cons]
  exact ⟨dropped .cmd, dropped .srcAddr, dropped .srcLen, dropped .dstAddr, dropped .data, dropped .typeTag,
    dropped .crcAcc, nofun⟩

theorem hostAccess_droppedIn (hb : s.busy = true) {a : Nat} (b : Byte) (ha : a < s.cfg.inSize.toNat) :
    hostAccess ⟨.inBuf, a, .write8 b⟩ s = answer .written (dropWrite s) := by
  rw [hostAccess_writeIn b ha, unlessBusy_of_busy hb]

theorem hostAccess_ovr_rises {x : Access} (h0 : s.ovr = false) (h1 : (hostAccess x s).ovr = true) :
    s.busy = true ∧ DroppedWhileBusy s.cfg x := by
  have effect := hostAccess_inversion x s
  generalize hostAccess x s = t at effect h1
  cases effect with
  | droppedReg off w hx hb ho => subst hx; exact ⟨hb, .inl ⟨w, rfl, rfl, ho⟩⟩
  | droppedIn a b hx hb ha => subst hx; exact ⟨hb, .inr ⟨b, rfl, rfl, ha⟩⟩
  | ctrl w _ => rcases writeCtrl_cases w s with ⟨-, hc⟩ | ⟨-, hc⟩ <;> simp [hc, h0] at h1
  | status w _ => simp [h0] at h1
  | illegal | read | cmd | operand | inByte | ignored => exact nomatch h0.symm.trans h1

theorem hostAccess_ovr_falls {x : Access} (h1 : s.ovr = true) (h0 : (hostAccess x s).ovr = false) :
    ClearsOvr (.host x) := by
  have effect := hostAccess_inversion x s
  generalize hostAccess x s = t at effect h0
  cases effect with
  | ctrl w hx =>
    rcases writeCtrl_cases w s with ⟨hw, -⟩ | ⟨-, hc⟩
    · exact .inl (resets_iff.mpr (.inr ⟨w, hw, congrArg _ hx⟩))
    · simp [hc, h1] at h0
  | status w hx => exact .inr ⟨w, by simpa [h1] using h0, congrArg _ hx⟩
  | droppedReg | droppedIn => cases h0
  | illegal | read | cmd | operand | inByte | ignored => exact nomatch h0.symm.trans h1

theorem step_ovr_rises (h : step s = .next t) (h0 : s.ovr = false) (h1 : t.ovr = true) :
    s.busy = true ∧ ∃ x : Access, s.nextEvent = some (.host x) ∧ DroppedWhileBusy s.cfg x := by
  rcases step_inversion h with ⟨-, he⟩ | ⟨x, rest, hs, rfl⟩ | ⟨rest, -, rfl⟩
  · cases h0.symm.trans ((engineStep_commandFrame he).ovr.symm.trans h1)
  · obtain ⟨hb, hx⟩ := hostAccess_ovr_rises (s := { s with schedule := rest }) h0 h1
    exact ⟨hb, x, nextEvent_of_schedule hs, hx⟩
  · cases h1

theorem step_ovr_falls (h : step s = .next t) (h1 : s.ovr = true) (h0 : t.ovr = false) :
    ∃ e : Event, s.nextEvent = some e ∧ ClearsOvr e := by
  rcases step_inversion h with ⟨-, he⟩ | ⟨x, rest, hs, rfl⟩ | ⟨rest, hs, rfl⟩
  · cases h0.symm.trans ((engineStep_commandFrame he).ovr.trans h1)
  · exact ⟨_, nextEvent_of_schedule hs, hostAccess_ovr_falls (s := { s with schedule := rest }) h1 h0⟩
  · exact ⟨_, nextEvent_of_schedule hs, .inl rfl⟩

theorem runEvent_clears_ovr {e : Event} (h : runEvent e s = .next t) (he : ClearsOvr e) : t.ovr = false := by
  rcases he with hr | ⟨w, hw, rfl⟩
  · rcases resets_iff.mp hr with rfl | ⟨w, hw, rfl⟩ <;> cases h
    · rfl
    · exact congrArg State.ovr (writeCtrl_of_reset hw s)
  · cases h
    change (writeStatus w s).ovr = false
    rw [writeStatus_ovr, hw, Bool.not_true, Bool.and_false]

/-- Settles O21: the rise and the fall by what a step can be, and each dropped write by its effect. -/
theorem overrunRisesAndFallsAsStated : Obligations.OverrunRisesAndFallsAsStated := by
  intro s t h
  refine ⟨step_ovr_rises h, fun h1 => ⟨step_ovr_falls h h1, ?_⟩, fun hb off w ho he => ?_, fun hb a b ha he => ?_⟩
  · rintro ⟨e, he, hc⟩
    exact runEvent_clears_ovr ((step_nextEvent he).symm.trans h) hc
  · cases (step_nextEvent he).symm.trans h
    exact congrArg State.ovr (hostAccess_droppedReg (s := { s with schedule := s.schedule.tail }) hb w ho)
  · cases (step_nextEvent he).symm.trans h
    exact congrArg State.ovr (hostAccess_droppedIn (s := { s with schedule := s.schedule.tail }) hb b ha)

/-! ### BUSY -/

theorem hostAccess_busy_rises {x : Access} (h0 : s.busy = false) (h1 : (hostAccess x s).busy = true) :
    ∃ w : Word, x = ⟨.reg, 0x0C, .write32 w⟩ ∧ (hostAccess x s).cmd = w ∧ (hostAccess x s).pend = some w ∧
      (hostAccess x s).done = false := by
  have effect := hostAccess_inversion x s
  generalize hostAccess x s = t at effect h1 ⊢
  cases effect with
  | cmd w hx _ => exact ⟨w, hx, rfl, rfl, rfl⟩
  | ctrl w _ => rcases writeCtrl_cases w s with ⟨-, hc⟩ | ⟨-, hc⟩ <;> simp [hc, h0] at h1
  | illegal | read | status | operand | inByte | droppedReg | droppedIn | ignored =>
    exact nomatch h0.symm.trans h1

theorem hostAccess_busy_falls {x : Access} (h1 : s.busy = true) (h0 : (hostAccess x s).busy = false) :
    (Event.host x).resets = true := by
  have effect := hostAccess_inversion x s
  generalize hostAccess x s = t at effect h0
  cases effect with
  | ctrl w hx =>
    rcases writeCtrl_cases w s with ⟨hw, -⟩ | ⟨-, hc⟩
    · exact resets_iff.mpr (.inr ⟨w, hw, congrArg _ hx⟩)
    · simp [hc, h1] at h0
  | cmd => cases h0
  | illegal | read | status | operand | inByte | droppedReg | droppedIn | ignored =>
    exact nomatch h0.symm.trans h1

/-- Settles O22: only an issue raises BUSY, and only the end of a command or a reset lets it fall. -/
theorem busyRisesByIssueAndFallsByCompletion : Obligations.BusyRisesByIssueAndFallsByCompletion := by
  intro s t h
  rcases step_inversion h with ⟨hm, he⟩ | ⟨x, rest, hs, rfl⟩ | ⟨rest, hs, rfl⟩
  · rcases engineStep_completes he with ⟨-, rfl⟩ | ⟨hp, hb, hdone, hpend⟩
    · exact ⟨fun h0 h1 => (nomatch h0.symm.trans h1), fun h1 h0 => (nomatch h0.symm.trans h1)⟩
    · exact ⟨fun _ h1 => (nomatch hb.symm.trans h1), fun _ _ => .inl ⟨hm, hp, hdone, hpend⟩⟩
  · refine ⟨fun h0 h1 => ?_, fun h1 h0 => .inr ⟨_, nextEvent_of_schedule hs, ?_⟩⟩
    · obtain ⟨w, rfl, hend⟩ := hostAccess_busy_rises (s := { s with schedule := rest }) h0 h1
      exact ⟨w, nextEvent_of_schedule hs, hend⟩
    · exact hostAccess_busy_falls (s := { s with schedule := rest }) h1 h0
  · exact ⟨nofun, fun _ _ => .inr ⟨_, nextEvent_of_schedule hs, rfl⟩⟩

/-! ### IN -/

theorem hostAccess_changes_in {x : Access} {a : Nat} (h : (hostAccess x s).inByte a ≠ s.inByte a) :
    s.busy = false ∧ a < s.cfg.inSize.toNat ∧ x = ⟨.inBuf, a, .write8 ((hostAccess x s).inByte a)⟩ := by
  have effect := hostAccess_inversion x s
  generalize hostAccess x s = t at effect h ⊢
  cases effect with
  | inByte a' b hx hb ha =>
    rw [answer_inByte, inByte_after_write] at h ⊢
    by_cases e : a = a'
    · subst e; exact ⟨hb, ha, by rw [if_pos rfl]; exact hx⟩
    · exact absurd (if_neg e) h
  | ctrl w _ =>
    rcases writeCtrl_cases w s with ⟨-, hc⟩ | ⟨-, hc⟩ <;> rw [answer_inByte, hc] at h
    · exact absurd (softReset_inByte s a) h
    · exact absurd rfl h
  | illegal | read | status | cmd | operand | droppedReg | droppedIn | ignored => exact absurd rfl h

/-- Settles O23: no completion touches IN, and of the host's transactions only a taken write of IN does. -/
theorem inChangesOnlyByHostWriteOrReset : Obligations.InChangesOnlyByHostWriteOrReset := by
  intro s t a h hne
  rcases step_inversion h with ⟨-, he⟩ | ⟨x, rest, hs, rfl⟩ | ⟨rest, hs, rfl⟩
  · exact absurd ((engineStep_commandFrame he).inByte a) hne
  · obtain ⟨hb, ha, hx⟩ := hostAccess_changes_in (s := { s with schedule := rest }) hne
    exact .inr ⟨hb, ha, (nextEvent_of_schedule hs).trans (congrArg (some ∘ Event.host) hx)⟩
  · exact .inl (nextEvent_of_schedule hs)

/-! ### OUT -/

/-- A command that changes a byte of OUT is one of the four, and the byte lies in its output range. -/
theorem exec_changes_out {i : Instr} {a : Nat} (h : exec i s = .next t) (hne : t.outByte a ≠ s.outByte a) :
    i ∈ [Instr.pack32, .frameChunk, .encode, .decode] ∧
      s.dstAddr.toNat ≤ a ∧ a < s.dstAddr.toNat + t.outLen.toNat := by
  rcases exec_inversion i s with ⟨e, hr⟩ | ⟨p, d, c, hr⟩ | ⟨bytes, hi, hd, hr⟩ <;> cases hr.symm.trans h
  · exact absurd rfl hne
  · exact absurd rfl hne
  · rw [afterOut_outByte] at hne
    rw [afterOut_outLen, outLen_of_dstFits hd]
    by_cases ha : s.dst ≤ a ∧ a < s.dst + bytes.length
    · exact ⟨hi, ha⟩
    · exact absurd (if_neg ha) hne

/-- Settles O45: a byte that changed would lie in the output range. -/
theorem outputsStayInTheirRange : Obligations.OutputsStayInTheirRange := by
  intro i s t _ h a hout
  by_contra hne
  obtain ⟨-, hlow, hhigh⟩ := exec_changes_out h hne
  omega

theorem lookupOpcode_opcodeMap {opc : Byte} {i : Instr} (h : lookupOpcode opc opcodeMap = some i) : opc = i.opcode := by
  simp only [opcodeMap, lookupOpcode] at h
  split_ifs at h <;> cases h <;> exact Eq.symm ‹_›

/-- Only the encoding of a command decodes to it: OPC names the command, and RSV is zero (30_encoding.md R110). -/
theorem eq_encode_of_decode {w : Word} {i : Instr} (h : decode w = .ok i) : w = encode i := by
  unfold decode at h
  split at h
  · next hres =>
    split at h
    · next hopc =>
      cases h
      rw [encode, ← eq_of_beq hres, ← lookupOpcode_opcodeMap hopc,
        BitVec.extractLsb'_append_extractLsb'_eq_extractLsb' (len₁ := 8) (start₁ := 0) rfl]
      exact BitVec.extractLsb'_eq_self.symm
    · cases h
  · cases h

theorem engineStep_changes_out {a : Nat} (h : engineStep s = .next t) (hne : t.outByte a ≠ s.outByte a) :
    s.pend ∈ [some (encode .pack32), some (encode .frameChunk), some (encode .encode), some (encode .decode)] ∧
      s.dstAddr.toNat ≤ a ∧ a < s.dstAddr.toNat + t.outLen.toNat := by
  rcases engineStep_inversion s with ⟨-, hr⟩ | ⟨w, i, hp, hd, hr⟩ | ⟨w, e, -, -, hr⟩
  · cases hr.symm.trans h; exact absurd rfl hne
  · obtain ⟨hi, range⟩ := exec_changes_out (hr.symm.trans h) hne
    rw [hp, eq_encode_of_decode hd]
    exact ⟨List.mem_map_of_mem (f := fun i => some (encode i)) hi, range⟩
  · cases hr.symm.trans h; exact absurd rfl hne

theorem hostAccess_changes_out {x : Access} {a : Nat} (h : (hostAccess x s).outByte a ≠ s.outByte a) :
    s.busy = true ∧ s.dstAddr.toNat ≤ a ∧ ∃ w : Word, w.getLsbD 1 = true ∧ x = ⟨.reg, 0x04, .write32 w⟩ := by
  have effect := hostAccess_inversion x s
  generalize hostAccess x s = t at effect h
  cases effect with
  | ctrl w hx =>
    rcases writeCtrl_cases w s with ⟨hw, hc⟩ | ⟨-, hc⟩ <;> rw [answer_outByte, hc] at h
    · cases hb : s.busy
      · exact absurd (softReset_outByte_of_idle hb a) h
      · rw [softReset_outByte_of_busy hb] at h
        by_cases ha : a < s.dstAddr.toNat
        · exact absurd (if_pos ha) h
        · exact ⟨rfl, Nat.le_of_not_lt ha, w, hw, hx⟩
    · exact absurd rfl h
  | illegal | read | status | cmd | operand | inByte | droppedReg | droppedIn | ignored => exact absurd rfl h

/-- Settles O24: the engine changes OUT by a command's output, the host by a soft reset that aborts. -/
theorem outChangesOnlyByCommandOrReset : Obligations.OutChangesOnlyByCommandOrReset := by
  intro s t a h hne
  rcases step_inversion h with ⟨hm, he⟩ | ⟨x, rest, hs, rfl⟩ | ⟨rest, hs, rfl⟩
  · exact .inr (.inl ⟨hm, engineStep_changes_out (s := { s with schedule := s.schedule.tail }) he hne⟩)
  · obtain ⟨hb, ha, w, hw, rfl⟩ := hostAccess_changes_out (s := { s with schedule := rest }) hne
    exact .inr (.inr ⟨hb, ha, w, hw, nextEvent_of_schedule hs⟩)
  · exact .inl (nextEvent_of_schedule hs)

end Sys2Proof.Machine
end

section
/-! SUPPORT. The proofs of 20_memory.md: which host accesses are legal, that reads touch no state of the block, the
issue, repeated writes, and what a host can do to a pending command. -/

namespace Sys2Proof.Machine

variable {s t : State}

/-! ### The host's side of the port -/

/-- The draws, the schedule and what the host recorded are no state of the block (10_state.md R30). -/
theorem sameBlock_hostSide (s : State) (n : Nat) (q : List Event) (as : List Answer) (xs : List Access) :
    SameBlock s { s with draws := n, schedule := q, answers := as, busErrors := xs } := by
  constructor <;> intros <;> rfl

/-- Settles O12: a read answers, or is a bus error, and either is on the host's side alone. -/
theorem readsHaveNoSideEffect : Obligations.ReadsHaveNoSideEffect := by
  intro x s hread
  have effect := hostAccess_inversion x s
  generalize hostAccess x s = t at effect
  cases effect with
  | illegal | read => exact sameBlock_hostSide s ..
  | ctrl w hx | status w hx | cmd w hx | operand _ _ _ _ _ _ _ _ w hx | inByte _ w hx | droppedReg _ w hx
  | droppedIn _ w hx =>
    subst hx; exact absurd hread (by simp)
  | ignored hx => rcases hx with ⟨_, _, rfl, -⟩ | ⟨_, _, rfl⟩ <;> exact absurd hread (by simp)

/-! ### Legal accesses -/

/-- The offsets of the sixteen registers are the multiples of 4 up to 0x3C (20_memory.md R82). -/
theorem ofOffset_isSome_iff (off : Nat) : (Reg.ofOffset off).isSome = true ↔ off % 4 = 0 ∧ off ≤ 0x3C := by
  constructor
  · intro h
    unfold Reg.ofOffset at h
    split at h
    case h_17 => cases h
    all_goals decide
  · rintro ⟨hmul, hmax⟩
    obtain ⟨k, rfl⟩ := Nat.dvd_of_mod_eq_zero hmul
    have hk : k ≤ 15 := by omega
    interval_cases k <;> rfl

/-- The host got one answer that is no bus error, and recorded none. -/
def Answered (s t : State) : Prop :=
  t.busErrors = s.busErrors ∧ ∃ a : Answer, a ≠ .busError ∧ t.answers = a :: s.answers

theorem answer_answered {a : Answer} (he : t.busErrors = s.busErrors) (hs : t.answers = s.answers)
    (ha : a ≠ .busError := by simp) : Answered s (answer a t) :=
  ⟨he, a, ha, congrArg _ hs⟩

theorem readReg_answered (r : Reg) (s : State) : Answered s (readReg r s) := by
  unfold readReg; split <;> exact answer_answered rfl rfl

theorem readOut_answered (a : Nat) (s : State) : Answered s (readOut a s) := by
  unfold readOut; split <;> exact answer_answered rfl rfl

theorem unlessBusy_answered (he : t.busErrors = s.busErrors) (hs : t.answers = s.answers) :
    Answered s (answer .written (unlessBusy s t)) := by
  unfold unlessBusy; split
  · exact answer_answered rfl rfl
  · exact answer_answered he hs

theorem writeReg_answered (r : Reg) (w : Word) (s : State) : Answered s (answer .written (writeReg r w s)) := by
  cases r with
  | ctrl =>
    rw [writeReg]
    rcases writeCtrl_cases w s with ⟨-, hc⟩ | ⟨-, hc⟩ <;> rw [hc]
    · exact answer_answered (softReset_busErrors s) (softReset_answers s)
    · exact answer_answered rfl rfl
  | status | id | outLen | crcResult | inSize | outSize | reserved38 | reserved3C =>
    exact answer_answered rfl rfl
  | cmd | srcAddr | srcLen | dstAddr | data | typeTag | crcAcc => exact unlessBusy_answered rfl rfl

/-- The register accesses that are legal are those of the sixteen registers (20_memory.md R82). -/
theorem legal_reg (off : Nat) {tr : Transfer} (htr : tr.is32 = true) (c : Config) :
    Access.legal ⟨.reg, off, tr⟩ c = (Reg.ofOffset off).isSome := by
  rw [Bool.eq_iff_iff, ofOffset_isSome_iff]
  simp [Access.legal, htr]

/-- A host access is legal and answered, or illegal and a bus error (20_memory.md R82 to R85). -/
def LegalityDecides (x : Access) (s : State) : Prop :=
  (x.legal s.cfg = true ∧ Answered s (hostAccess x s)) ∨ (x.legal s.cfg = false ∧ hostAccess x s = busError x s)

theorem legalityDecides_of_bound {x : Access} {size : Nat} (hlegal : x.legal s.cfg = decide (x.offset < size))
    (heq : hostAccess x s = if x.offset < size then t else busError x s) (ht : Answered s t) :
    LegalityDecides x s := by
  by_cases hx : x.offset < size
  · exact .inl ⟨by simp [hlegal, hx], by rwa [heq, if_pos hx]⟩
  · exact .inr ⟨by simp [hlegal, hx], by rw [heq, if_neg hx]⟩

theorem hostAccess_legality (x : Access) (s : State) : LegalityDecides x s := by
  obtain ⟨sp, off, tr⟩ := x
  cases sp <;> cases tr
  case reg.read32 =>
    rw [LegalityDecides, legal_reg off rfl, hostAccess]
    cases Reg.ofOffset off with
    | none => exact .inr ⟨rfl, rfl⟩
    | some r => exact .inl ⟨rfl, readReg_answered r s⟩
  case reg.write32 w =>
    rw [LegalityDecides, legal_reg off rfl, hostAccess]
    cases Reg.ofOffset off with
    | none => exact .inr ⟨rfl, rfl⟩
    | some r => exact .inl ⟨rfl, writeReg_answered r w s⟩
  case inBuf.read8 => exact legalityDecides_of_bound rfl rfl (answer_answered rfl rfl)
  case inBuf.write8 b => exact legalityDecides_of_bound rfl rfl (unlessBusy_answered rfl rfl)
  case outBuf.read8 => exact legalityDecides_of_bound rfl rfl (readOut_answered off s)
  case outBuf.write8 b => exact legalityDecides_of_bound rfl rfl (answer_answered rfl rfl)
  all_goals exact .inr ⟨rfl, rfl⟩

/-- Settles O11: the model's check agrees with the three spaces, and it decides between an answer and a bus error. -/
theorem illegalAccessIsABusError : Obligations.IllegalAccessIsABusError := by
  intro x s legal
  have hlegal : x.legal s.cfg = true ↔ legal := by
    obtain ⟨sp, off, tr⟩ := x
    cases sp <;> cases tr <;> simp [legal, Access.legal, Transfer.is32]
  rcases hostAccess_legality x s with ⟨hl, ha⟩ | ⟨hl, he⟩
  · exact ⟨fun hn => absurd (hlegal.mp hl) hn, fun _ => ha, hlegal⟩
  · exact ⟨fun _ => he, fun hn => (nomatch hl.symm.trans (hlegal.mpr hn)), hlegal⟩

/-! ### Issue and repeated writes -/

/-- Issue: a CMD write to an idle block (20_memory.md R90). -/
theorem hostAccess_issue (hb : s.busy = false) (w : Word) :
    hostAccess ⟨.reg, 0x0C, .write32 w⟩ s = answer .written (issue w s) :=
  (hostAccess_writeReg .cmd w s).trans (congrArg _ (unlessBusy_of_idle hb _))

/-- Settles O16: the issue, which looks at no bit of the word. -/
theorem cmdWriteIssues : Obligations.CmdWriteIssues := fun _ w hb => hostAccess_issue hb w

/-- A second write of the same byte finds it there. -/
theorem Memory.write_write_same (m : Memory) (a : Nat) (v : Byte) : (m.write a v).write a v = m.write a v := by
  induction m with
  | nil => simp [Memory.write]
  | cons c rest ih =>
    obtain ⟨b, w⟩ := c
    rcases Nat.lt_trichotomy a b with h | rfl | h
    · simp [Memory.write, h]
    · simp [Memory.write]
    · simp [Memory.write, h.not_gt, h.ne', ih]

/-- The access made again changes nothing; the host gets one more answer. -/
def RepeatsAsOnce (x : Access) (s : State) : Prop :=
  hostAccess x (hostAccess x s) = answer .written (hostAccess x s)

/-- A write that BUSY = 1 drops repeats as once where the store it makes while idle does. -/
theorem repeatsAsOnce_of_unlessBusy {x : Access} {store : State → State}
    (hx : ∀ u, u.cfg = s.cfg → hostAccess x u = answer .written (unlessBusy u (store u)))
    (hcfg : (store s).cfg = s.cfg) (hbusy : (store s).busy = s.busy)
    (hstore : store (answer .written (store s)) = answer .written (store s)) : RepeatsAsOnce x s := by
  rw [RepeatsAsOnce, hx s rfl]
  cases hb : s.busy
  · have hidle : (answer .written (store s)).busy = false := hbusy.trans hb
    rw [unlessBusy_of_idle hb, hx (answer .written (store s)) hcfg, unlessBusy_of_idle hidle, hstore]
  · have hbusy' : (answer .written (dropWrite s)).busy = true := hb
    rw [unlessBusy_of_busy hb, hx (answer .written (dropWrite s)) rfl, unlessBusy_of_busy hbusy']
    rfl

theorem writeIn_repeatsAsOnce {a : Nat} (b : Byte) (ha : a < s.cfg.inSize.toNat) :
    RepeatsAsOnce ⟨.inBuf, a, .write8 b⟩ s :=
  repeatsAsOnce_of_unlessBusy (store := fun u => { u with inBuf := u.inBuf.write a b })
    (fun _ hu => hostAccess_writeIn b (hu ▸ ha)) rfl rfl
    (congrArg (fun m => answer .written { s with inBuf := m }) (Memory.write_write_same s.inBuf a b))

theorem writeStatus_repeatsAsOnce (w : Word) (s : State) : RepeatsAsOnce ⟨.reg, 0x08, .write32 w⟩ s := by
  have hx (u : State) : hostAccess ⟨.reg, 0x08, .write32 w⟩ u = answer .written (writeStatus w u) :=
    hostAccess_writeReg .status w u
  rw [RepeatsAsOnce, hx, hx]
  simp [writeStatus, answer]

/-- Six registers hold what was written to them, and STATUS' flags stay cleared. -/
theorem writeReg_repeatsAsOnce {off : Nat} (ho : off ∈ [(0x08 : Nat), 0x10, 0x14, 0x18, 0x20, 0x24, 0x28]) (w : Word)
    (s : State) : RepeatsAsOnce ⟨.reg, off, .write32 w⟩ s := by
  have operand (r : Reg) (store : State → State)
      (h : ∀ u, writeReg r w u = unlessBusy u (store u) := by intro u; rfl)
      (hcfg : (store s).cfg = s.cfg := by rfl) (hbusy : (store s).busy = s.busy := by rfl)
      (hstore : store (answer .written (store s)) = answer .written (store s) := by rfl) :
      RepeatsAsOnce ⟨.reg, r.offset, .write32 w⟩ s :=
    repeatsAsOnce_of_unlessBusy (fun u _ => by rw [hostAccess_writeReg, h]) hcfg hbusy hstore
  revert ho off
  simp only [List.forall_mem_cons]
  exact ⟨writeStatus_repeatsAsOnce w s, operand .srcAddr fun u => { u with srcAddr := w },
    operand .srcLen fun u => { u with srcLen := w }, operand .dstAddr fun u => { u with dstAddr := w },
    operand .data fun u => { u with data := w }, operand .typeTag fun u => { u with typeTag := w },
    operand .crcAcc fun u => { u with crcAcc := w }, nofun⟩

/-- Settles O19: the second write finds its own value, or is dropped as the first; after an issue the block is busy, and
the second CMD write is dropped. -/
theorem repeatedWrites : Obligations.RepeatedWrites := by
  refine ⟨fun x s hx => ?_, fun s w hb => ?_⟩
  · have once : RepeatsAsOnce x s := by
      obtain ⟨sp, off, tr⟩ := x
      rcases hx with ⟨w, rfl, rfl, ho⟩ | ⟨b, rfl, rfl, ha⟩
      · exact writeReg_repeatsAsOnce ho w s
      · exact writeIn_repeatsAsOnce b ha
    rw [once]
    exact sameBlock_hostSide (hostAccess x s) ..
  · rw [hostAccess_issue hb, hostAccess_droppedReg (s := answer .written (issue w s)) rfl w (by decide)]
    exact sameBlock_hostSide { issue w s with ovr := true } ..

/-! ### A pending command -/

/-- `s` with the flags CTRL_IE, DONE and OVR, the draws and the host's side of `b`: no command reads them, and while a
command is pending a host access short of a reset changes nothing else (20_memory.md R94). -/
def withBystanders (b s : State) : State :=
  { s with
    ctrlIE := b.ctrlIE, done := b.done, ovr := b.ovr, draws := b.draws, schedule := b.schedule
    answers := b.answers, busErrors := b.busErrors }

theorem hostAccess_whileBusy {x : Access} (hb : s.busy = true) (hx : (Event.host x).resets = false) :
    hostAccess x s = withBystanders (hostAccess x s) s := by
  have effect := hostAccess_inversion x s
  generalize hostAccess x s = t at effect
  cases effect with
  | ctrl w h =>
    subst h
    rw [writeCtrl_of_no_reset hx]
    rfl
  | cmd _ _ hidle | operand _ _ _ _ _ _ hidle | inByte _ _ _ hidle => exact nomatch hb.symm.trans hidle
  | illegal | read | status | droppedReg | droppedIn | ignored => rfl

/-- Settles O25: a completion keeps its operands, and a host access short of a reset all but the bystanders. -/
theorem inputsStandWhileBusy : Obligations.InputsStandWhileBusy := by
  intro s t hb h hreset
  rcases step_inversion h with ⟨hm, he⟩ | ⟨x, rest, hs, rfl⟩ | ⟨rest, hs, rfl⟩
  · have frame := engineStep_commandFrame he
    exact ⟨⟨frame.srcAddr, frame.srcLen, frame.dstAddr, frame.typeTag, frame.cmd, frame.inByte⟩,
      fun hn => nomatch hm.symm.trans hn⟩
  · rw [hostAccess_whileBusy (s := { s with schedule := rest }) hb (hreset _ (nextEvent_of_schedule hs))]
    exact ⟨⟨rfl, rfl, rfl, rfl, rfl, fun _ => rfl⟩, fun _ => ⟨rfl, hb, rfl, rfl, rfl, fun _ => rfl⟩⟩
  · exact nomatch hreset _ (nextEvent_of_schedule hs)

/-- What `r` comes to where the bystanders are `b`'s: a state that goes on is a completed command's, with DONE = 1. -/
def completeBeside (b : State) : Result → Result
  | .next t => .next (withBystanders { b with done := true } t)
  | .fault f => .fault f
  | .refused f => .refused f

theorem guardSrc_beside {b : State} {n : Nat} {k k' : Result} (h : k' = completeBeside b k) :
    guardSrc (withBystanders b s) n k' = completeBeside b (guardSrc s n k) := by
  subst h; exact (apply_ite (completeBeside b) (s.srcFits n) k (.next (raiseError .srcRange s))).symm

theorem guardDst_beside {b : State} {n : Nat} {k k' : Result} (h : k' = completeBeside b k) :
    guardDst (withBystanders b s) n k' = completeBeside b (guardDst s n k) := by
  subst h; exact (apply_ite (completeBeside b) (s.dstFits n) k (.next (raiseError .dstRange s))).symm

theorem loadIn_beside {b : State} {a n : Nat} {k k' : List Byte → Result}
    (h : ∀ bytes, k' bytes = completeBeside b (k bytes)) :
    loadIn (withBystanders b s) a n k' = completeBeside b (loadIn s a n k) := by
  by_cases hs : a + n ≤ s.cfg.inSize.toNat
  · rw [loadIn_of_fits _ hs, loadIn_of_fits (s := withBystanders b s) _ hs]; exact h _
  · simp [loadIn, memRead, hs, withBystanders, completeBeside]

theorem writeOut_beside (b : State) (bytes : List Byte) :
    writeOut (withBystanders b s) bytes = completeBeside b (writeOut s bytes) := by
  by_cases hs : s.dstFits bytes.length
  · rw [writeOut_of_fits hs, writeOut_of_fits (s := withBystanders b s) hs]; rfl
  · simp only [writeOut, storeOut, memWrite]
    rw [if_neg hs, if_neg (show ¬ (withBystanders b s).dstFits bytes.length from hs)]; rfl

/-- No command reads the bystanders, and of them a command writes DONE alone. -/
theorem exec_beside (i : Instr) (b s : State) :
    exec i (withBystanders b s) = completeBeside b (exec i s) := by
  cases i with
  | crcInit | crcByte => rfl
  | crcUpdate | crcCompute | unpack32 => exact guardSrc_beside (loadIn_beside fun _ => rfl)
  | pack32 => exact guardDst_beside (writeOut_beside b _)
  | frameChunk | encode => exact guardSrc_beside (guardDst_beside (loadIn_beside fun _ => writeOut_beside b _))
  | decode =>
    refine guardSrc_beside (loadIn_beside fun c => ?_)
    cases decodeContainer c with
    | none => rfl
    | some p => exact guardDst_beside (writeOut_beside b p)

/-- A host access short of a reset, taken while a command is pending, leaves the command as it was. -/
theorem step_hostWhileBusy {x : Access} {rest : List Event} (hs : s.schedule = .host x :: rest) (hb : s.busy = true)
    (hx : (Event.host x).resets = false) :
    ∃ t, step s = .next t ∧ t.schedule = rest ∧ t.busy = true ∧
      ∀ b, withBystanders b t = withBystanders b s := by
  have hkeep := hostAccess_whileBusy (s := { s with schedule := rest }) hb hx
  refine ⟨_, step_event hs, hostAccess_schedule x _, ?_, fun b => ?_⟩ <;> rw [hkeep]
  · exact hb
  · rfl

/-- The run of such accesses and of the completion is the completion, beside what the host did. -/
theorem run_hostAccesses_completion {xs : List Access} {rest : List Event} (hb : s.busy = true)
    (hxs : ∀ x ∈ xs, (Event.host x).resets = false)
    (hs : s.schedule = xs.map Event.host ++ .completion :: rest) :
    ∃ b : State, b.schedule = rest ∧ ∀ u, engineStep (withBystanders b s) = .next u →
      Host.Core.run Sys2Proof.core (xs.length + 1) s = .next u := by
  induction xs generalizing s with
  | nil => exact ⟨{ s with schedule := rest }, rfl, fun u hu => run_succ ((step_event hs).trans hu)⟩
  | cons x xs ih =>
    obtain ⟨hx, hxs⟩ := List.forall_mem_cons.mp hxs
    obtain ⟨t, hstep, ht, hbt, hkeep⟩ := step_hostWhileBusy hs hb hx
    obtain ⟨b, hrest, hrun⟩ := ih hbt hxs ht
    exact ⟨b, hrest, fun u hu => (run_succ hstep).trans (hrun u (hkeep b ▸ hu))⟩

/-- Settles O26: the completion finds the operands as they were, so that its results are those it gives at once. -/
theorem hostCannotDisturbAPendingCommand : Obligations.HostCannotDisturbAPendingCommand := by
  intro s w i xs rest t hb hp hi hxs hs ht
  obtain ⟨b, hrest, hrun⟩ := run_hostAccesses_completion hb hxs hs
  obtain ⟨hnone, -⟩ | ⟨-, hbusy, -, hpend⟩ := engineStep_completes ((engineStep_command hp hi).trans ht)
  · cases hp.symm.trans hnone
  · refine ⟨withBystanders { b with done := true } t, ?_, rfl, rfl, rfl, rfl, rfl, hbusy, rfl, hpend, hrest,
      fun _ => rfl, (exec_commandFrame ht).inByte⟩
    exact hrun _ ((engineStep_command (s := withBystanders b s) hp hi).trans
      ((exec_beside i b s).trans (congrArg (completeBeside b) ht)))

end Sys2Proof.Machine
end

section
/-! SUPPORT. The proofs of 30_encoding.md: the round trip of the decoder and the encoder, what a command leaves as it was,
and that it reads its operands only. -/

namespace Sys2Proof.Machine

variable {s s' t : State} {i : Instr}

/-! ### Encoding and decoding -/

/-- The statement made per command holds of all nine. -/
theorem encoding_statement (i : Instr) : Laws.Encoding.Statement i := by
  cases i with
  | crcInit => exact Laws.Encoding.crcInit
  | crcByte => exact Laws.Encoding.crcByte
  | crcUpdate => exact Laws.Encoding.crcUpdate
  | crcCompute => exact Laws.Encoding.crcCompute
  | pack32 => exact Laws.Encoding.pack32
  | unpack32 => exact Laws.Encoding.unpack32
  | frameChunk => exact Laws.Encoding.frameChunk
  | encode => exact Laws.Encoding.encode
  | decode => exact Laws.Encoding.decode

theorem decode_encode (i : Instr) : decode (encode i) = .ok i := by
  obtain ⟨-, -, -, hdecode, -⟩ := encoding_statement i
  exact hdecode

/-- Settles O1: a word that decodes is the command's encoding, and the encoding decodes to the command. -/
theorem decodeInvertsEncode : Obligations.DecodeInvertsEncode := by
  intro w i
  constructor
  · exact eq_encode_of_decode
  · rintro rfl
    exact decode_encode i

/-- Settles O2: the nine words are the encodings of the commands, and the other four are rejected by evaluation. -/
theorem sampleWordsDecode : Obligations.SampleWordsDecode :=
  ⟨decode_encode .crcInit, decode_encode .crcByte, decode_encode .crcUpdate, decode_encode .crcCompute,
    decode_encode .pack32, decode_encode .unpack32, decode_encode .frameChunk, decode_encode .encode,
    decode_encode .decode, rfl, rfl, rfl, rfl⟩

/-! ### Two runs of one command -/

/-- The two states agree on the operands that the table of 30_encoding.md R115 gives the command. -/
structure SameOperands (i : Instr) (s s' : State) : Prop where
  cfg : s'.cfg = s.cfg
  source : i ∈ [Instr.crcUpdate, .crcCompute, .unpack32, .frameChunk, .encode, .decode] →
    s'.srcAddr = s.srcAddr ∧ ∀ a, s'.inByte a = s.inByte a
  srcLen : i ∈ [Instr.crcUpdate, .crcCompute, .frameChunk, .encode, .decode] → s'.srcLen = s.srcLen
  dstAddr : i ∈ [Instr.pack32, .frameChunk, .encode, .decode] → s'.dstAddr = s.dstAddr
  crcAcc : i ∈ [Instr.crcByte, .crcUpdate] → s'.crcAcc = s.crcAcc
  dataByte : i = .crcByte → s'.dataByte = s.dataByte
  data : i = .pack32 → s'.data = s.data
  typeTag : i = .frameChunk → s'.typeTag = s.typeTag

theorem SameOperands.len (h : SameOperands i s s')
    (hi : i ∈ [Instr.crcUpdate, .crcCompute, .frameChunk, .encode, .decode]) : s'.len = s.len := by
  rw [State.len, h.srcLen hi]

theorem sameOperands_refl (i : Instr) (s : State) : SameOperands i s s := by
  constructor <;> simp

/-- The result values `d` and `c` in DATA and CRC_ACC, each where the command writes that register (30_encoding.md
R115). -/
def withResults (i : Instr) (d c : Word) (s : State) : State :=
  { s with
    data := if i ∈ [Instr.crcCompute, .unpack32] then d else s.data
    crcAcc := if i ∈ [Instr.crcInit, .crcByte, .crcUpdate, .crcCompute] then c else s.crcAcc }

/-- The command ends in the same way from both states, with the same result values. -/
inductive EndAlike (i : Instr) (s s' : State) : Result → Result → Prop
  /-- In the same error. -/
  | error (e : CmdError) : EndAlike i s s' (.next (raiseError e s)) (.next (raiseError e s'))
  /-- Complete, without a write to OUT. -/
  | complete (p : Bool) (d c : Word) :
      EndAlike i s s' (.next (complete p 0 (withResults i d c s))) (.next (complete p 0 (withResults i d c s')))
  /-- Complete, after one of the four commands that write OUT wrote the same bytes. -/
  | out (bytes : List Byte) (hi : i ∈ [Instr.pack32, .frameChunk, .encode, .decode]) (hd : s.dstFits bytes.length)
      (hdst : s'.dstAddr = s.dstAddr) : EndAlike i s s' (.next (afterOut s bytes)) (.next (afterOut s' bytes))

theorem guardSrc_endAlike {n : Nat} {k k' : Result} (hcfg : s'.cfg = s.cfg) (hsrc : s'.srcAddr = s.srcAddr)
    (hk : s.srcFits n → EndAlike i s s' k k') : EndAlike i s s' (guardSrc s n k) (guardSrc s' n k') := by
  have hiff : s'.srcFits n ↔ s.srcFits n := by rw [State.srcFits, State.src, hcfg, hsrc]
  by_cases hs : s.srcFits n
  · rw [guardSrc_of_fits _ hs, guardSrc_of_fits _ (hiff.mpr hs)]
    exact hk hs
  · rw [guardSrc_of_not_fits _ hs, guardSrc_of_not_fits _ (mt hiff.mp hs)]
    exact .error .srcRange

theorem guardDst_endAlike {n : Nat} {k k' : Result} (hcfg : s'.cfg = s.cfg) (hdst : s'.dstAddr = s.dstAddr)
    (hk : s.dstFits n → EndAlike i s s' k k') : EndAlike i s s' (guardDst s n k) (guardDst s' n k') := by
  have hiff : s'.dstFits n ↔ s.dstFits n := by rw [State.dstFits, State.dst, hcfg, hdst]
  by_cases hd : s.dstFits n
  · rw [guardDst_of_fits _ hd, guardDst_of_fits _ (hiff.mpr hd)]
    exact hk hd
  · rw [guardDst_of_not_fits _ hd, guardDst_of_not_fits _ (mt hiff.mp hd)]
    exact .error .dstRange

theorem loadIn_endAlike {n : Nat} {k k' : List Byte → Result} (hcfg : s'.cfg = s.cfg)
    (hsource : s'.srcAddr = s.srcAddr ∧ ∀ a, s'.inByte a = s.inByte a) (hs : s.srcFits n)
    (hk : ∀ bytes, bytes.length = n → EndAlike i s s' (k bytes) (k' bytes)) :
    EndAlike i s s' (loadIn s s.src n k) (loadIn s' s'.src n k') := by
  obtain ⟨hsrc, hin⟩ := hsource
  have hbytes : s'.inBytes s'.src n = s.inBytes s.src n := by rw [State.src, hsrc]; simp [State.inBytes, hin]
  rw [loadIn_of_fits _ hs, loadIn_of_fits _ (by rwa [State.src, hcfg, hsrc]), hbytes]
  exact hk _ (inBytes_length ..)

theorem withSource_endAlike {n : Nat} {k k' : List Byte → Result} (hcfg : s'.cfg = s.cfg)
    (hsource : s'.srcAddr = s.srcAddr ∧ ∀ a, s'.inByte a = s.inByte a)
    (hk : ∀ bytes, bytes.length = n → EndAlike i s s' (k bytes) (k' bytes)) :
    EndAlike i s s' (withSource s n k) (withSource s' n k') :=
  guardSrc_endAlike hcfg hsource.1 fun hs => loadIn_endAlike hcfg hsource hs hk

theorem writeOut_endAlike {bytes : List Byte} (hi : i ∈ [Instr.pack32, .frameChunk, .encode, .decode])
    (hcfg : s'.cfg = s.cfg) (hdst : s'.dstAddr = s.dstAddr) (hd : s.dstFits bytes.length) :
    EndAlike i s s' (writeOut s bytes) (writeOut s' bytes) := by
  rw [writeOut_of_fits hd, writeOut_of_fits (by rwa [State.dstFits, State.dst, hcfg, hdst])]
  exact .out bytes hi hd hdst

/-- A command is a function of its operands: from states that agree on them it ends alike. -/
theorem exec_endAlike (h : SameOperands i s s') : EndAlike i s s' (exec i s) (exec i s') := by
  cases i with
  | crcInit => exact .complete true 0#32 crcInitValue
  | crcByte =>
    simp only [exec, execCrcByte, h.crcAcc (by decide), h.dataByte rfl]
    exact .complete true 0#32 _
  | crcUpdate =>
    simp only [exec, execCrcUpdate, h.crcAcc (by decide), h.len (by decide)]
    exact withSource_endAlike h.cfg (h.source (by decide)) fun _ _ => .complete true 0#32 _
  | crcCompute =>
    simp only [exec, execCrcCompute, h.len (by decide)]
    exact withSource_endAlike h.cfg (h.source (by decide)) fun _ _ => .complete true _ _
  | unpack32 => exact withSource_endAlike h.cfg (h.source (by decide)) fun _ _ => .complete true _ 0#32
  | pack32 =>
    have hdst := h.dstAddr (by decide)
    simp only [exec, execPack32, h.data rfl]
    exact guardDst_endAlike h.cfg hdst (writeOut_endAlike (bytes := be32 s.data) (by decide) h.cfg hdst)
  | frameChunk =>
    have hsource := h.source (by decide)
    have hdst := h.dstAddr (by decide)
    simp only [exec, execFrameChunk, State.tag, h.len (by decide), h.typeTag rfl]
    refine guardSrc_endAlike h.cfg hsource.1 fun hs => guardDst_endAlike h.cfg hdst fun hd =>
      loadIn_endAlike h.cfg hsource hs fun d hlen => writeOut_endAlike (by decide) h.cfg hdst ?_
    rw [chunk_length, be32_length, hlen]
    simp only [State.dstFits] at hd ⊢
    omega
  | encode =>
    have hsource := h.source (by decide)
    have hdst := h.dstAddr (by decide)
    simp only [exec, execEncode, h.len (by decide)]
    refine guardSrc_endAlike h.cfg hsource.1 fun hs => guardDst_endAlike h.cfg hdst fun hd =>
      loadIn_endAlike h.cfg hsource hs fun p hlen => writeOut_endAlike (by decide) h.cfg hdst ?_
    rwa [encodeContainer_length, hlen]
  | decode =>
    have hdst := h.dstAddr (by decide)
    simp only [exec, execDecode, h.len (by decide)]
    refine withSource_endAlike h.cfg (h.source (by decide)) fun c _ => ?_
    cases decodeContainer c with
    | none => exact .complete false 0#32 0#32
    | some p => exact guardDst_endAlike h.cfg hdst (writeOut_endAlike (by decide) h.cfg hdst)

/-! ### What a command leaves as it was -/

/-- A run beside itself: whatever the outcome, a result register that is not the command's keeps its value. -/
theorem exec_keeps_result_registers (h : exec i s = .next t) :
    (i ∉ [Instr.crcCompute, .unpack32] → t.data = s.data) ∧
      (i ∉ [Instr.crcInit, .crcByte, .crcUpdate, .crcCompute] → t.crcAcc = s.crcAcc) := by
  have hend := exec_endAlike (sameOperands_refl i s)
  rw [h] at hend
  cases hend with
  | error | out => exact ⟨fun _ => rfl, fun _ => rfl⟩
  | complete p d c => exact ⟨fun hi => if_neg hi, fun hi => if_neg hi⟩

theorem exec_keeps_out (h : exec i s = .next t) (hi : i ∉ [Instr.pack32, .frameChunk, .encode, .decode]) :
    SameOut s t ∧ t.outLen = 0#32 := by
  rcases exec_inversion i s with ⟨e, he⟩ | ⟨p, d, c, he⟩ | ⟨bytes, hout, -, -⟩
  · cases he.symm.trans h; exact ⟨fun _ => rfl, rfl⟩
  · cases he.symm.trans h; exact ⟨fun _ => rfl, rfl⟩
  · exact absurd hout hi

/-- Settles O43: the frame of every command, and each result register or buffer kept by the commands that do not
write it. -/
theorem commandsKeepWhatTheyDoNotWrite : Obligations.CommandsKeepWhatTheyDoNotWrite := by
  intro i s t h
  obtain ⟨hdata, hcrc⟩ := exec_keeps_result_registers h
  exact ⟨exec_commandFrame h, hdata, hcrc, exec_keeps_out h⟩

/-! ### What a command reads -/

/-- The four commands that write OUT write neither CRC_ACC nor DATA. -/
theorem no_result_register_of_writes_out (hi : i ∈ [Instr.pack32, .frameChunk, .encode, .decode]) :
    i ∉ [Instr.crcInit, .crcByte, .crcUpdate, .crcCompute] ∧ i ∉ [Instr.crcCompute, .unpack32] := by
  simp only [List.mem_cons, List.not_mem_nil, or_false] at hi
  rcases hi with rfl | rfl | rfl | rfl <;> decide

/-- The same bytes written at the same DST_ADDR read the same in the output range. -/
theorem afterOut_outByte_agree {bytes : List Byte} {a : Nat} (hdst : s'.dstAddr = s.dstAddr) (hlow : s.dst ≤ a)
    (hhigh : a < s.dst + bytes.length) : (afterOut s' bytes).outByte a = (afterOut s bytes).outByte a := by
  rw [afterOut_outByte, afterOut_outByte, State.dst, hdst, if_pos ⟨hlow, hhigh⟩, if_pos ⟨hlow, hhigh⟩]

/-- Settles O44: the two runs end alike, and the results of each way to end are the same in both. -/
theorem commandsReadOnlyTheirOperands : Obligations.CommandsReadOnlyTheirOperands := by
  intro i s s' t h hcfg hsource hlen hdst hacc hbyte hdata htag
  have hend := exec_endAlike ⟨hcfg, hsource, hlen, hdst, hacc, hbyte, hdata, htag⟩
  rw [h] at hend
  generalize exec i s' = r at hend ⊢
  cases hend with
  | error e =>
    have herr : e.code ≠ 0#4 := by cases e <;> decide
    refine ⟨_, rfl, rfl, rfl, rfl, fun h0 => absurd h0 herr, fun h0 => absurd h0 herr, fun a hlow hhigh => ?_⟩
    exact absurd hlow (Nat.not_le.mpr hhigh)
  | complete p d c =>
    refine ⟨_, rfl, rfl, rfl, rfl, fun _ hi => (if_pos hi).trans (if_pos hi).symm,
      fun _ hi => (if_pos hi).trans (if_pos hi).symm, fun a hlow hhigh => ?_⟩
    exact absurd hlow (Nat.not_le.mpr hhigh)
  | out bytes hi hd hdst =>
    rw [afterOut_outLen, outLen_of_dstFits hd]
    obtain ⟨hcrc, hdata⟩ := no_result_register_of_writes_out hi
    exact ⟨_, rfl, rfl, rfl, rfl, fun _ hc => absurd hc hcrc, fun _ hc => absurd hc hdata,
      fun _ => afterOut_outByte_agree hdst⟩

end Sys2Proof.Machine
end

section
/-! SUPPORT. The proofs of 41_crc.md: the byte step as a linear one-to-one map and as a table lookup, the single-bit
errors it detects, and the four CRC commands. -/

namespace Sys2Proof.Machine

variable {s : State}

/-! ### The byte step is linear -/

theorem crcRound_of_clear {c : Word} (h : c.getLsbD 0 = false) : crcRound c = c >>> 1 := if_neg (by rw [h]; decide)

theorem crcRound_of_set {c : Word} (h : c.getLsbD 0 = true) : crcRound c = c >>> 1 ^^^ crcPoly := if_pos h

theorem crcRound_xor (c d : Word) : crcRound (c ^^^ d) = crcRound c ^^^ crcRound d := by
  simp only [crcRound, BitVec.getLsbD_xor, BitVec.ushiftRight_xor_distrib]
  cases c.getLsbD 0 <;> cases d.getLsbD 0 <;>
    simp only [Bool.xor_false, Bool.xor_true, Bool.not_false, Bool.not_true, Bool.false_eq_true, if_true, if_false]
  case false.true => exact BitVec.xor_assoc ..
  case true.false => ac_rfl
  case true.true => rw [BitVec.xor_comm (d >>> 1), ← BitVec.xor_assoc, xor_cancel_right]

theorem crcRounds_xor (n : Nat) (c d : Word) : crcRounds n (c ^^^ d) = crcRounds n c ^^^ crcRounds n d := by
  induction n generalizing c d with
  | zero => rfl
  | succ n ih => simp only [crcRounds, crcRound_xor, ih]

/-- Settles O47: the byte enters by an exclusive or, and each round is linear. -/
theorem crcStepIsLinear : Obligations.CrcStepIsLinear := by
  intro a a' b b'
  have hxor : (a ^^^ a') ^^^ (b ^^^ b').setWidth 32 = (a ^^^ b.setWidth 32) ^^^ (a' ^^^ b'.setWidth 32) := by
    rw [BitVec.setWidth_xor]
    ac_rfl
  rw [crcStep, hxor, crcRounds_xor]
  rfl

/-! ### The table -/

/-- While the low bits are clear the rounds only shift: the polynomial is never taken in. -/
theorem crcRounds_of_low_bits_clear (n : Nat) (c : Word) (h : ∀ i < n, c.getLsbD i = false) :
    crcRounds n c = c >>> n := by
  induction n generalizing c with
  | zero => simp [crcRounds]
  | succ n ih =>
    rw [crcRounds, crcRound_of_clear (h 0 (Nat.succ_pos n)), ih, ← BitVec.shiftRight_add, Nat.add_comm 1 n]
    intro i hi
    rw [BitVec.getLsbD_ushiftRight]
    exact h (1 + i) (by omega)

/-- A word is its low byte and the rest. -/
theorem low_byte_xor_rest (x : Word) : (x.extractLsb' 0 8).setWidth 32 ^^^ (x >>> 8) <<< 8 = x := by
  apply BitVec.eq_of_getLsbD_eq
  intro i hi
  by_cases h : i < 8
  · simp [h, hi]
  · simp [h, hi, Nat.add_sub_cancel' (Nat.le_of_not_lt h)]

/-- Eight rounds take the low byte in and shift the rest. -/
theorem crcRounds_eight (x : Word) : crcRounds 8 x = x >>> 8 ^^^ crcStep 0#32 (x.extractLsb' 0 8) := by
  have hrest : crcRounds 8 ((x >>> 8) <<< 8) = x >>> 8 := by
    rw [crcRounds_of_low_bits_clear 8 _ fun i hi => by simp [hi]]
    apply BitVec.eq_of_getLsbD_eq
    intro i hi
    simpa [hi] using BitVec.lt_of_getLsbD
  calc crcRounds 8 x = crcRounds 8 ((x.extractLsb' 0 8).setWidth 32 ^^^ (x >>> 8) <<< 8) := by rw [low_byte_xor_rest]
    _ = crcRounds 8 ((x.extractLsb' 0 8).setWidth 32) ^^^ x >>> 8 := by rw [crcRounds_xor, hrest]
    _ = x >>> 8 ^^^ crcStep 0#32 (x.extractLsb' 0 8) := by rw [crcStep, BitVec.zero_xor, BitVec.xor_comm]

/-- A byte has no bits above the eighth. -/
theorem byte_shiftRight (b : Byte) : b.setWidth 32 >>> 8 = 0#32 := by
  apply BitVec.eq_of_getLsbD_eq
  intro i _
  simp

/-- The printed table holds the step of each byte from 0 (41_crc.md R144), by evaluating its 256 entries. -/
theorem crcTableAt_eq_crcStep : ∀ n : Byte, crcTableAt n = crcStep 0#32 n := by decide +kernel

/-- Settles O46: the eight rounds of the low byte are the table's entry, those of the rest are a shift. -/
theorem tableDrivenStepAgrees : Obligations.TableDrivenStepAgrees := by
  refine ⟨crcTableAt_eq_crcStep, by decide +kernel, fun acc b => ?_⟩
  have hrest : (acc ^^^ b.setWidth 32) >>> 8 = acc >>> 8 := by
    rw [BitVec.ushiftRight_xor_distrib, byte_shiftRight, BitVec.xor_zero]
  rw [crcStep, crcRounds_eight, hrest, crcStepByTable, crcTableAt_eq_crcStep]

/-! ### The fold is one-to-one -/

theorem crcRound_top_bit (c : Word) : (crcRound c).getLsbD 31 = c.getLsbD 0 := by
  cases h : c.getLsbD 0 with
  | false => rw [crcRound_of_clear h]; simp
  | true => rw [crcRound_of_set h]; simp [crcPoly]

/-- The top bit tells whether the polynomial was taken in; what is left are the other bits. -/
theorem crcRound_injective : Function.Injective crcRound := by
  intro c d h
  have hlow : c.getLsbD 0 = d.getLsbD 0 := by rw [← crcRound_top_bit, h, crcRound_top_bit]
  have hshift : c >>> 1 = d >>> 1 := by
    cases hd : d.getLsbD 0 with
    | false => rwa [crcRound_of_clear (hlow.trans hd), crcRound_of_clear hd] at h
    | true =>
      rw [crcRound_of_set (hlow.trans hd), crcRound_of_set hd] at h
      exact (BitVec.xor_left_inj crcPoly).mp h
  apply BitVec.eq_of_getLsbD_eq
  intro i _
  cases i with
  | zero => exact hlow
  | succ i => simpa [Nat.add_comm] using congrArg (·.getLsbD i) hshift

theorem crcRounds_injective (n : Nat) : Function.Injective (crcRounds n) := by
  induction n with
  | zero => exact Function.injective_id
  | succ n ih => exact ih.comp crcRound_injective

theorem crcStep_left_injective (b : Byte) : Function.Injective (crcStep · b) := fun _ _ h =>
  (BitVec.xor_left_inj _).mp (crcRounds_injective 8 h)

theorem crcStep_right_injective (acc : Word) : Function.Injective (crcStep acc) := fun b b' h => by
  have hbyte := (BitVec.xor_right_inj _).mp (crcRounds_injective 8 h)
  simpa using congrArg (BitVec.setWidth 8) hbyte

/-- Two folds over two sequences are one over both (41_crc.md R142). -/
theorem crcFold_append (acc : Word) (a b : List Byte) : crcFold acc (a ++ b) = crcFold (crcFold acc a) b := by
  induction a generalizing acc with
  | nil => rfl
  | cons v rest ih => exact ih (crcStep acc v)

theorem crcFold_left_injective (bytes : List Byte) : Function.Injective (crcFold · bytes) := by
  induction bytes with
  | nil => exact Function.injective_id
  | cons v rest ih => exact ih.comp (crcStep_left_injective v)

/-- A changed byte changes the fold: the accumulators differ after it, and stay different. -/
theorem crcFold_set_ne (acc : Word) {bytes : List Byte} {i : Nat} {v : Byte} (h : i < bytes.length)
    (hv : v ≠ bytes[i]) : crcFold acc (bytes.set i v) ≠ crcFold acc bytes := by
  induction bytes generalizing acc i with
  | nil => cases h
  | cons w rest ih =>
    cases i with
    | zero => exact fun heq => hv (crcStep_right_injective acc (crcFold_left_injective rest heq))
    | succ i => exact ih (crcStep acc w) (Nat.lt_of_succ_lt_succ h) hv

theorem crc32_set_ne {bytes : List Byte} {i : Nat} {v : Byte} (h : i < bytes.length) (hv : v ≠ bytes[i]) :
    crc32 (bytes.set i v) ≠ crc32 bytes := fun heq =>
  crcFold_set_ne crcInitValue h hv ((BitVec.xor_left_inj _).mp heq)

theorem flip_bit_ne (v : Byte) {bit : Nat} (h : bit < 8) : v ^^^ (1#8 <<< bit) ≠ v := by
  intro heq
  have hbit := congrArg (·.getLsbD bit) heq
  simp [h] at hbit

/-- Settles O48: the flipped byte is another byte, and a changed byte changes the checksum. -/
theorem crcDetectsEverySingleBitError : Obligations.CrcDetectsEverySingleBitError := fun bytes i _ h hbit =>
  crc32_set_ne h (flip_bit_ne bytes[i] hbit)

/-! ### The commands -/

theorem crc32_eq_not_crcFold (bytes : List Byte) : crc32 bytes = ~~~crcFold crcInitValue bytes := BitVec.xor_allOnes

theorem execCrcUpdate_of_fits (h : s.srcFits s.len) :
    execCrcUpdate s = .next (complete true 0 { s with crcAcc := crcFold s.crcAcc (s.inBytes s.src s.len) }) :=
  withSource_of_fits _ h

theorem execCrcUpdate_of_not_fits (h : ¬ s.srcFits s.len) : execCrcUpdate s = .next (raiseError .srcRange s) :=
  withSource_of_not_fits _ h

theorem execCrcCompute_of_fits (h : s.srcFits s.len) :
    execCrcCompute s = .next (complete true 0 { s with
      crcAcc := crcFold crcInitValue (s.inBytes s.src s.len), data := crc32 (s.inBytes s.src s.len) }) :=
  withSource_of_fits _ h

theorem execCrcCompute_of_not_fits (h : ¬ s.srcFits s.len) : execCrcCompute s = .next (raiseError .srcRange s) :=
  withSource_of_not_fits _ h

/-- An empty range fits as far as the end of IN. -/
theorem srcFits_of_empty (h : s.srcLen = 0#32) : s.srcFits s.len ↔ s.src ≤ s.cfg.inSize.toNat := by
  simp [State.len, h]

/-- Settles O33: the two outcomes of the source operand, the empty range as the case of each, and the fold's law. -/
theorem crcUpdateFoldsTheSource : Obligations.CrcUpdateFoldsTheSource := by
  refine ⟨rfl, fun s h => execCrcUpdate_of_fits h, fun s h => execCrcUpdate_of_not_fits h, fun s hlen h => ?_,
    fun s hlen h => ?_, fun acc a b => (crcFold_append acc a b).symm, by decide +kernel, rfl⟩
  · refine (execCrcUpdate_of_fits ((srcFits_of_empty hlen).mpr h)).trans ?_
    simp [State.len, hlen, State.inBytes, complete]
  · exact execCrcUpdate_of_not_fits (mt (srcFits_of_empty hlen).mp (Nat.not_le.mpr h))

/-- Settles O34: the two outcomes of the source operand, and the checksum as the complement of the accumulator. -/
theorem crcComputeChecksumsTheSource : Obligations.CrcComputeChecksumsTheSource :=
  ⟨rfl, fun _ h => ⟨_, rfl, execCrcCompute_of_fits h, crc32_eq_not_crcFold _⟩,
    fun _ h => execCrcCompute_of_not_fits h, rfl, rfl, by decide +kernel, by decide +kernel⟩

/-- Settles O31: CRC_INIT reads nothing that it writes. -/
theorem crcInitStartsTheAccumulator : Obligations.CrcInitStartsTheAccumulator :=
  ⟨rfl, fun _ => ⟨_, rfl, rfl, BitVec.not_allOnes, rfl⟩⟩

/-- Settles O32: by the definition of the command, and the rule's values by evaluation. -/
theorem crcByteFoldsOneByte : Obligations.CrcByteFoldsOneByte :=
  ⟨rfl, fun _ => rfl, by decide +kernel, by decide +kernel, by decide +kernel, rfl, by decide +kernel⟩

end Sys2Proof.Machine
end

section
/-! SUPPORT. The proofs of 42_pack.md: what a delivered output is, byte by byte, the two commands of the packer, and
their round trip through a host copy of OUT to IN. -/

namespace Sys2Proof.Machine

variable {s t u : State}

/-! ### A delivered output -/

/-- Bytes that fit are delivered by the write and completion of `afterOut` (10_state.md R42, R55). -/
theorem afterOut_delivered {bytes : List Byte} (hd : s.dstFits bytes.length) :
    Delivered s bytes (afterOut s bytes) where
  out := afterOut_outByte s bytes
  outLen := outLen_of_dstFits hd
  pass := rfl
  err := rfl
  busy := rfl
  done := rfl
  pend := rfl
  data := rfl
  crcAcc := rfl
  frame := afterOut_commandFrame s bytes

theorem Delivered.outByte_add {bytes : List Byte} {k : Nat} (h : Delivered s bytes t) (hk : k < bytes.length) :
    t.outByte (s.dst + k) = bytes[k] := by
  rw [h.out, if_pos ⟨Nat.le_add_right _ _, Nat.add_lt_add_left hk _⟩, Nat.add_sub_cancel_left,
    List.getD_eq_getElem _ _ hk]

@[simp] theorem getElem_inBytes {a n k : Nat} (hk : k < (s.inBytes a n).length) :
    (s.inBytes a n)[k] = s.inByte (a + k) := by
  simp [State.inBytes]

/-- A copy of a delivered output into IN is read back as the bytes that were written. -/
theorem Delivered.inBytes_copy {bytes : List Byte} {a : Nat} (h : Delivered s bytes t)
    (hcopy : ∀ k < bytes.length, u.inByte (a + k) = t.outByte (s.dst + k)) : u.inBytes a bytes.length = bytes := by
  refine List.ext_getElem (inBytes_length u a _) fun k _ hk => ?_
  rw [getElem_inBytes, hcopy k hk, h.outByte_add hk]

/-! ### The two commands -/

theorem execPack32_delivers (hd : s.dstFits 4) : ∃ t : State, execPack32 s = .next t ∧ Delivered s (be32 s.data) t :=
  ⟨_, execPack32_of_fits hd, afterOut_delivered hd⟩

theorem execUnpack32_of_fits (hs : s.srcFits 4) :
    execUnpack32 s = .next (complete true 0 { s with data := unbe32 (s.inBytes s.src 4) }) :=
  withSource_of_fits _ hs

/-- Settles O35: the two outcomes of the destination operand; `be32` spells out the four bytes. -/
theorem pack32WritesDataBigEndian : Obligations.Pack32WritesDataBigEndian :=
  ⟨rfl, fun _ => execPack32_delivers, fun _ => guardDst_of_not_fits _, rfl⟩

/-- Settles O36: the two outcomes of the source operand, and the four bytes read as an unsigned number. -/
theorem unpack32ReadsDataBigEndian : Obligations.Unpack32ReadsDataBigEndian := by
  refine ⟨rfl, fun s hs => ⟨_, execUnpack32_of_fits hs, rfl, ?_⟩, fun _ => withSource_of_not_fits _, rfl, rfl⟩
  rw [complete_data, inBytes_four, unbe32_toNat]

/-! ### The round trip -/

theorem delivered_of_exec_pack32 (hd : s.dstFits 4) (h : exec .pack32 s = .next t) : Delivered s (be32 s.data) t := by
  obtain ⟨t', ht', hdel⟩ := execPack32_delivers hd
  cases ht'.symm.trans h
  exact hdel

theorem data_of_exec_unpack32 (hs : s.srcFits 4) (h : exec .unpack32 s = .next t) :
    t.data = unbe32 (s.inBytes s.src 4) := by
  cases (execUnpack32_of_fits hs).symm.trans h
  rfl

/-- Settles O50: the copied bytes are `be32` of DATA, and `be32` of the number read is the bytes it was read from. -/
theorem packThenUnpackReturnsData : Obligations.PackThenUnpackReturnsData := by
  refine ⟨fun s t u v hd hpack hs hcopy hunpack => ?_, fun s t u v hs hunpack hdata hd hpack k hk => ?_⟩
  · calc v.data = unbe32 (u.inBytes u.src 4) := data_of_exec_unpack32 hs hunpack
      _ = unbe32 (be32 s.data) := congrArg unbe32 ((delivered_of_exec_pack32 hd hpack).inBytes_copy hcopy)
      _ = s.data := unbe32_be32 s.data
  · have hbytes : be32 u.data = s.inBytes s.src 4 := by
      rw [hdata, data_of_exec_unpack32 hs hunpack, be32_unbe32 (inBytes_length s _ 4)]
    have hdel := delivered_of_exec_pack32 hd hpack
    rw [hbytes] at hdel
    have hlen : k < (s.inBytes s.src 4).length := hk
    exact (hdel.outByte_add hlen).trans (getElem_inBytes hlen)

end Sys2Proof.Machine
end

section
/-! SUPPORT. The proofs of 43_framer.md: the parts of a chunk, field by field, and the three outcomes of FRAME_CHUNK. -/

namespace Sys2Proof.Machine

variable {s : State}

/-! ### The parts of a chunk -/

/-- A chunk cut in three around one of its parts: what stands before the part, the part, and what follows
(43_framer.md R190). -/
theorem subseq_chunk_part {t d a b c : List Byte} {i j : Nat} (h : chunk t d = a ++ b ++ c) (hi : i = a.length)
    (hj : j = a.length + b.length) : subseq (chunk t d) i j = b := by
  rw [h, subseq_middle a b c hi hj]

theorem subseq_chunk_length_field (t d : List Byte) : subseq (chunk t d) 0 4 = be32 (BitVec.ofNat 32 d.length) :=
  subseq_chunk_part (a := []) (c := t ++ d ++ be32 (crc32 (t ++ d))) (by simp [chunk]) rfl rfl

theorem subseq_chunk_tag {t : List Byte} (ht : t.length = 4) (d : List Byte) : subseq (chunk t d) 4 8 = t :=
  subseq_chunk_part (a := be32 (BitVec.ofNat 32 d.length)) (c := d ++ be32 (crc32 (t ++ d))) (by simp [chunk]) rfl
    (by simp [ht])

theorem subseq_chunk_data {t : List Byte} (ht : t.length = 4) (d : List Byte) :
    subseq (chunk t d) 8 (8 + d.length) = d :=
  subseq_chunk_part (a := be32 (BitVec.ofNat 32 d.length) ++ t) rfl (by simp [ht]) (by simp [ht])

theorem subseq_chunk_checksum {t : List Byte} (ht : t.length = 4) (d : List Byte) :
    subseq (chunk t d) (8 + d.length) (12 + d.length) = be32 (crc32 (t ++ d)) :=
  subseq_chunk_part (a := be32 (BitVec.ofNat 32 d.length) ++ t ++ d) (c := []) (by simp [chunk]) (by simp [ht]; omega)
    (by simp [ht]; omega)

theorem chunk_length_of_tag {t : List Byte} (ht : t.length = 4) (d : List Byte) :
    (chunk t d).length = 12 + d.length := by
  rw [chunk_length, ht]; omega

/-- The length field counts the data alone, up to 2^32 - 1 bytes (43_framer.md R191). -/
theorem length_field_toNat (t : List Byte) {d : List Byte} (hd : d.length < 2 ^ 32) :
    (unbe32 (subseq (chunk t d) 0 4)).toNat = d.length := by
  rw [subseq_chunk_length_field, unbe32_be32, BitVec.toNat_ofNat, Nat.mod_eq_of_lt hd]

/-- Settles O51: each field of the chunk is the part that stands there. -/
theorem chunkLayout : Obligations.ChunkLayout := fun t d ht hd =>
  ⟨chunk_length_of_tag ht d, length_field_toNat t hd, subseq_chunk_tag ht d, subseq_chunk_data ht d,
    subseq_chunk_checksum ht d⟩

/-! ### FRAME_CHUNK -/

/-- The length field of the chunk of the source bytes is SRC_LEN itself. -/
theorem chunk_source (s : State) : chunk s.tag (s.inBytes s.src s.len) =
    be32 s.srcLen ++ be32 s.typeTag ++ s.inBytes s.src s.len ++
      be32 (crc32 (be32 s.typeTag ++ s.inBytes s.src s.len)) := by
  have hlen : BitVec.ofNat 32 (s.inBytes s.src s.len).length = s.srcLen := by
    rw [inBytes_length, State.len, BitVec.ofNat_toNat, BitVec.setWidth_eq]
  rw [chunk, hlen, State.tag]

theorem chunk_source_length (s : State) : (chunk s.tag (s.inBytes s.src s.len)).length = 12 + s.len := by
  rw [chunk_length_of_tag s.tag_length, inBytes_length]

/-- Both ranges fit: the chunk of TYPE and the source bytes is delivered. -/
theorem execFrameChunk_delivers (hs : s.srcFits s.len) (hd : s.dstFits (12 + s.len)) :
    ∃ t : State, execFrameChunk s = .next t ∧ Delivered s (chunk s.tag (s.inBytes s.src s.len)) t :=
  ⟨_, execFrameChunk_of_fits hs hd, afterOut_delivered (by rwa [chunk_source_length])⟩

/-- The source is checked first, so its error is reported whatever the destination (60_exceptions.md R257). -/
theorem execFrameChunk_of_not_srcFits (hs : ¬ s.srcFits s.len) : execFrameChunk s = .next (raiseError .srcRange s) :=
  guardSrc_of_not_fits _ hs

theorem execFrameChunk_of_not_dstFits (hs : s.srcFits s.len) (hd : ¬ s.dstFits (12 + s.len)) :
    execFrameChunk s = .next (raiseError .dstRange s) :=
  (guardSrc_of_fits _ hs).trans (guardDst_of_not_fits _ hd)

/-- Settles O37: the three outcomes of the two guards, and the empty IEND chunk by evaluation. -/
theorem frameChunkWritesTheChunk : Obligations.FrameChunkWritesTheChunk := by
  refine ⟨rfl, fun s hs hd => ?_, fun _ => execFrameChunk_of_not_srcFits, fun _ => execFrameChunk_of_not_dstFits,
    by decide +kernel⟩
  obtain ⟨t, ht, hdel⟩ := execFrameChunk_delivers hs hd
  exact ⟨t, ht, chunk_source s ▸ hdel, hdel.outLen.trans (chunk_source_length s)⟩

end Sys2Proof.Machine
end

section
/-! SUPPORT. The proofs of 44_container.md: the decoder field by field, what it is that decodes, the commands ENCODE and
DECODE, and what a change of a container does to its decode. -/

namespace Sys2Proof.Machine

variable {s : State}

/-! ### Subsequences of a sequence in parts -/

/-- Indices past the first part count from the start of the second. -/
theorem subseq_append_right (a b : List Byte) (i j : Nat) :
    subseq (a ++ b) (a.length + i) (a.length + j) = subseq b i j := by
  rw [subseq, subseq, List.drop_append, List.drop_of_length_le (by omega)]
  simp [Nat.add_sub_add_left]

theorem subseq_append_left {a : List Byte} (b : List Byte) {i j : Nat} (hj : j ≤ a.length) :
    subseq (a ++ b) i j = subseq a i j := by
  by_cases hi : i ≤ a.length
  · rw [subseq, List.drop_append_of_le_length hi, List.take_append_of_le_length (by simp; omega), subseq]
  · simp [subseq, Nat.sub_eq_zero_of_le (by omega : j ≤ i)]

theorem subseq_append_subseq (c : List Byte) {i j k : Nat} (hij : i ≤ j) (hjk : j ≤ k) :
    subseq c i j ++ subseq c j k = subseq c i k := by
  have hdrop : c.drop j = (c.drop i).drop (j - i) := by rw [List.drop_drop, Nat.add_sub_cancel' hij]
  have hcount : j - i + (k - j) = k - i := by omega
  rw [subseq, subseq, subseq, hdrop, ← List.take_add, hcount]

/-- A byte of the middle part, read and set where it stands in the whole. -/
theorem getElem?_middle (a b c : List Byte) {i : Nat} (hi : i < b.length) :
    (a ++ b ++ c)[a.length + i]? = some b[i] := by
  rw [List.append_assoc, List.getElem?_append_right (Nat.le_add_right _ _), Nat.add_sub_cancel_left,
    List.getElem?_append_left hi, List.getElem?_eq_getElem hi]

theorem set_middle (a b c : List Byte) {i : Nat} (v : Byte) (hi : i < b.length) :
    (a ++ b ++ c).set (a.length + i) v = a ++ b.set i v ++ c := by
  rw [List.append_assoc, List.set_append_right _ _ (Nat.le_add_right _ _), Nat.add_sub_cancel_left,
    List.set_append_left _ _ hi, List.append_assoc]

/-! ### The data-chunk -/

/-- The data-chunk is read from the index where it starts, whatever stands before (44_container.md R219 to R222). -/
theorem decodeDataChunk_append (a b : List Byte) : decodeDataChunk (a ++ b) a.length = decodeDataChunk b 0 := by
  have hstart (j : Nat) : subseq (a ++ b) a.length (a.length + j) = subseq b 0 j := subseq_append_right a b 0 j
  simp only [decodeDataChunk, Nat.add_assoc, hstart, subseq_append_right, List.length_append, Nat.zero_add,
    gt_iff_lt, Nat.add_lt_add_iff_left]

/-- The decode of the four fields of a data-chunk: the checksum alone decides (44_container.md R222). -/
theorem decodeDataChunk_fields {lenField tag p ck : List Byte} (rest : List Byte) (hlen : lenField.length = 4)
    (htag : tag.length = 4) (hp : p.length = (unbe32 lenField).toNat) (hck : ck.length = 4) :
    decodeDataChunk (lenField ++ tag ++ p ++ ck ++ rest) 0 =
      if be32 (crc32 (tag ++ p)) = ck then some p else none := by
  have hfield : subseq (lenField ++ tag ++ p ++ ck ++ rest) 0 4 = lenField := by
    simpa using subseq_middle [] lenField (tag ++ p ++ ck ++ rest) rfl (by simp [hlen])
  have htype : subseq (lenField ++ tag ++ p ++ ck ++ rest) 4 8 = tag := by
    simpa using subseq_middle lenField tag (p ++ ck ++ rest) hlen.symm (by simp [hlen, htag])
  have hdata : subseq (lenField ++ tag ++ p ++ ck ++ rest) 8 (8 + p.length) = p := by
    simpa using subseq_middle (lenField ++ tag) p (ck ++ rest) (by simp [hlen, htag]) (by simp [hlen, htag])
  have hsum : subseq (lenField ++ tag ++ p ++ ck ++ rest) (8 + p.length) (12 + p.length) = ck :=
    subseq_middle (lenField ++ tag ++ p) ck rest (by simp [hlen, htag]; omega) (by simp [hlen, htag, hck]; omega)
  have hfits : ¬ 12 + p.length > (lenField ++ tag ++ p ++ ck ++ rest).length := by simp [hlen, htag, hck]; omega
  have hfits8 : ¬ 8 > (lenField ++ tag ++ p ++ ck ++ rest).length := by omega
  simp only [decodeDataChunk, Nat.zero_add, hfield, ← hp, htype, hdata, hsum, if_neg hfits, if_neg hfits8, ite_not]

/-- The length field of a payload holds its length, up to 2^32 - 1 bytes (43_framer.md R191). -/
theorem unbe32_be32_length {p : List Byte} (hp : p.length < 2 ^ 32) :
    (unbe32 (be32 (BitVec.ofNat 32 p.length))).toNat = p.length := by
  rw [← subseq_chunk_length_field [], length_field_toNat [] hp]

theorem decodeDataChunk_chunk {tag p : List Byte} (rest : List Byte) (htag : tag.length = 4) (hp : p.length < 2 ^ 32) :
    decodeDataChunk (chunk tag p ++ rest) 0 = some p := by
  rw [chunk, decodeDataChunk_fields rest (be32_length _) htag (unbe32_be32_length hp).symm (be32_length _), if_pos rfl]

/-- What is read as a data-chunk is the chunk of its tag and payload, then any bytes. -/
theorem exists_chunk_of_decodeDataChunk {c p : List Byte} (h : decodeDataChunk c 0 = some p) :
    ∃ tag rest, tag.length = 4 ∧ p.length < 2 ^ 32 ∧ c = chunk tag p ++ rest := by
  simp only [decodeDataChunk, Nat.zero_add] at h
  split_ifs at h with h8 hfits hsum
  obtain rfl := Option.some.inj h
  set n := (unbe32 (subseq c 0 4)).toNat with hn
  have hdata : (subseq c 8 (8 + n)).length = n := by rw [subseq_length c (by omega)]; omega
  have hfield : be32 (BitVec.ofNat 32 n) = subseq c 0 4 := by
    rw [hn, BitVec.ofNat_toNat, BitVec.setWidth_eq, be32_unbe32 (subseq_length c (by omega))]
  refine ⟨subseq c 4 8, c.drop (12 + n), subseq_length c (by omega), hdata.trans_lt (unbe32 _).isLt, ?_⟩
  rw [chunk, hdata, hfield, not_not.mp hsum, subseq_append_subseq c (by omega) (by omega),
    subseq_append_subseq c (by omega) (by omega), subseq_append_subseq c (by omega) (by omega)]
  exact (List.take_append_drop (12 + n) c).symm

/-! ### The header-chunk and the whole container -/

/-- What the decoder skips as the header-chunk: as many bytes as its length field says, and the twelve of the length
field, the type and the checksum (44_container.md R218). -/
def SkippedAsHeader (header : List Byte) : Prop := header.length = 12 + (unbe32 (subseq header 0 4)).toNat

theorem skippedAsHeader_fields {lenField tag d ck : List Byte} (hlen : lenField.length = 4) (htag : tag.length = 4)
    (hd : d.length = (unbe32 lenField).toNat) (hck : ck.length = 4) :
    SkippedAsHeader (lenField ++ tag ++ d ++ ck) := by
  have hfield : subseq (lenField ++ tag ++ d ++ ck) 0 4 = lenField := by
    simpa using subseq_middle [] lenField (tag ++ d ++ ck) rfl (by simp [hlen])
  rw [SkippedAsHeader, hfield, ← hd]
  simp only [List.length_append, hlen, htag, hck]
  omega

theorem skippedAsHeader_chunk {tag d : List Byte} (htag : tag.length = 4) (hd : d.length < 2 ^ 32) :
    SkippedAsHeader (chunk tag d) :=
  skippedAsHeader_fields (be32_length _) htag (unbe32_be32_length hd).symm (be32_length _)

/-- The length field of the header-chunk, where it stands in the container. -/
theorem subseq_header_length_field {header : List Byte} (rest : List Byte) (h : SkippedAsHeader header) :
    subseq (sig ++ header ++ rest) 8 12 = subseq header 0 4 := by
  have h4 : 4 ≤ header.length := by rw [h]; omega
  rw [List.append_assoc, ← subseq_append_left rest h4]
  exact subseq_append_right sig (header ++ rest) 0 4

/-- After the signature the header-chunk is skipped by its length field alone (44_container.md R217, R218). -/
theorem decodeContainer_header {header : List Byte} (rest : List Byte) (h : SkippedAsHeader header) :
    decodeContainer (sig ++ header ++ rest) = decodeDataChunk rest 0 := by
  have hsig : subseq (sig ++ header ++ rest) 0 8 = sig := by
    simpa using subseq_middle [] sig (header ++ rest) rfl rfl
  have hskip : 8 + 12 + (unbe32 (subseq header 0 4)).toNat = (sig ++ header).length := by
    rw [List.length_append, h, sig_length, Nat.add_assoc]
  have hfits : (sig ++ header).length ≤ (sig ++ header ++ rest).length := by simp
  rw [decodeContainer, if_neg (by rw [hsig]; simp), if_neg (by omega), subseq_header_length_field rest h]
  simp only [hskip, gt_iff_lt, Nat.not_lt.mpr hfits, if_false, decodeDataChunk_append]

/-- What decodes begins with the signature and a header-chunk that is skipped. -/
theorem exists_header_of_decodeContainer {c p : List Byte} (h : decodeContainer c = some p) :
    ∃ header rest, SkippedAsHeader header ∧ c = sig ++ header ++ rest := by
  simp only [decodeContainer] at h
  split_ifs at h with hsig h16 hfits
  obtain ⟨-, hsig⟩ := not_or.mp hsig
  set n := (unbe32 (subseq c 8 12)).toNat with hn
  refine ⟨subseq c 8 (8 + 12 + n), c.drop (8 + 12 + n), ?_, ?_⟩
  · have hfield : subseq (subseq c 8 (8 + 12 + n)) 0 4 = subseq c 8 12 := by
      rw [← subseq_append_subseq c (by omega : 8 ≤ 12) (by omega),
        subseq_append_left _ (by rw [subseq_length c (by omega)])]
      simp [subseq]
    rw [SkippedAsHeader, hfield, subseq_length c (by omega), ← hn]
    omega
  · rw [← not_not.mp hsig, subseq_append_subseq c (by omega) (by omega)]
    exact (List.take_append_drop (8 + 12 + n) c).symm

/-- The containers that decode to `p` (44_container.md R216 to R223): the signature, a header-chunk to skip, the chunk
of `p` under any tag, and any bytes. -/
theorem decodeContainer_eq_some_iff {c p : List Byte} :
    decodeContainer c = some p ↔ ∃ header tag rest, SkippedAsHeader header ∧ tag.length = 4 ∧ p.length < 2 ^ 32 ∧
      c = sig ++ header ++ (chunk tag p ++ rest) := by
  constructor
  · intro h
    obtain ⟨header, body, hheader, rfl⟩ := exists_header_of_decodeContainer h
    rw [decodeContainer_header body hheader] at h
    obtain ⟨tag, rest, htag, hp, rfl⟩ := exists_chunk_of_decodeDataChunk h
    exact ⟨header, tag, rest, hheader, htag, hp, rfl⟩
  · rintro ⟨header, tag, rest, hheader, htag, hp, rfl⟩
    rw [decodeContainer_header _ hheader, decodeDataChunk_chunk rest htag hp]

/-- Settles O57: any two chunks are a header-chunk to skip and a data-chunk. -/
theorem anyTagsDecode : Obligations.AnyTagsDecode := by
  intro th dh tag p rest hth htag hdh hp
  rw [List.append_assoc]
  exact decodeContainer_eq_some_iff.mpr ⟨chunk th dh, tag, rest, skippedAsHeader_chunk hth hdh, htag, hp, rfl⟩

/-- Settles O53: a container is an IHDR chunk and an IDAT chunk, with the IEND chunk after them. -/
theorem decodeContainerInvertsEncodeContainer : Obligations.DecodeContainerInvertsEncodeContainer := fun p hp =>
  anyTagsDecode tagIHDR hdr13 tagIDAT p (chunk tagIEND []) rfl rfl (by decide) hp

/-- Settles O52: the constant parts are evaluated, the IDAT chunk stands between them. -/
theorem containerLayout : Obligations.ContainerLayout := by
  intro p
  have hhead : sig ++ chunk tagIHDR hdr13 =
      [0x89#8, 0x50#8, 0x4E#8, 0x47#8, 0x0D#8, 0x0A#8, 0x1A#8, 0x0A#8,
       0x00#8, 0x00#8, 0x00#8, 0x0D#8, 0x49#8, 0x48#8, 0x44#8, 0x52#8,
       0x00#8, 0x00#8, 0x00#8, 0x01#8, 0x00#8, 0x00#8, 0x00#8, 0x01#8, 0x08#8, 0x06#8, 0x00#8, 0x00#8, 0x00#8,
       0x1F#8, 0x15#8, 0xC4#8, 0x89#8] := by decide +kernel
  have htail : chunk tagIEND [] =
      [0x00#8, 0x00#8, 0x00#8, 0x00#8, 0x49#8, 0x45#8, 0x4E#8, 0x44#8, 0xAE#8, 0x42#8, 0x60#8, 0x82#8] := by
    decide +kernel
  have hfront : (sig ++ chunk tagIHDR hdr13 ++ chunk tagIDAT p).length = 45 + p.length := by simp; omega
  refine ⟨encodeContainer_length p, ?_, ?_, ?_⟩
  · rw [← hhead, encodeContainer, List.append_assoc]
    exact List.take_left' rfl
  · exact subseq_middle (sig ++ chunk tagIHDR hdr13) (chunk tagIDAT p) _ rfl (by simp; omega)
  · rw [← htail]
    exact List.drop_left' hfront

/-- Settles O55: the signature is compared first. -/
theorem signatureGate : Obligations.SignatureGate := fun _ h => if_pos (.inr h)

/-! ### What a change of a container does to its decode -/

/-- Settles O56: either header-chunk is skipped, and the rest is decoded. -/
theorem headerContentIsIrrelevant : Obligations.HeaderContentIsIrrelevant := by
  intro lenField tag tag' d d' ck ck' rest hlen htag htag' hck hck' hd hd'
  have hskipped {tag d ck : List Byte} (htag : tag.length = 4) (hd : d.length = (unbe32 lenField).toNat)
      (hck : ck.length = 4) : decodeContainer (sig ++ lenField ++ tag ++ d ++ ck ++ rest) = decodeDataChunk rest 0 := by
    simpa using decodeContainer_header rest (skippedAsHeader_fields hlen htag hd hck)
  rw [hskipped htag hd hck, hskipped htag' (hd'.trans hd) hck']

/-- Bytes after a container that decodes do not matter. -/
theorem decodeContainer_append {c p : List Byte} (extra : List Byte) (h : decodeContainer c = some p) :
    decodeContainer (c ++ extra) = some p := by
  obtain ⟨header, tag, rest, hheader, htag, hp, rfl⟩ := decodeContainer_eq_some_iff.mp h
  exact decodeContainer_eq_some_iff.mpr ⟨header, tag, rest ++ extra, hheader, htag, hp, by simp⟩

/-- Where the data-chunk's checksum ends. -/
theorem dataChunk_end {header tag : List Byte} (p rest : List Byte) (hheader : SkippedAsHeader header)
    (htag : tag.length = 4) : 32 + (unbe32 (subseq (sig ++ header ++ (chunk tag p ++ rest)) 8 12)).toNat + p.length =
      (sig ++ header ++ chunk tag p).length := by
  rw [subseq_header_length_field _ hheader, List.length_append, List.length_append, hheader, sig_length,
    chunk_length_of_tag htag]
  omega

theorem dataChunk_end_le_length {c p : List Byte} (h : decodeContainer c = some p) :
    32 + (unbe32 (subseq c 8 12)).toNat + p.length ≤ c.length := by
  obtain ⟨header, tag, rest, hheader, htag, -, rfl⟩ := decodeContainer_eq_some_iff.mp h
  rw [dataChunk_end p rest hheader htag, ← List.append_assoc, List.length_append (bs := rest)]
  exact Nat.le_add_right _ _

/-- Settles O58: the cut leaves the signature, the header-chunk and the data-chunk. -/
theorem bytesAfterTheDataChunkAreIrrelevant : Obligations.BytesAfterTheDataChunkAreIrrelevant := by
  intro c p extra h
  obtain ⟨header, tag, rest, hheader, htag, hp, rfl⟩ := decodeContainer_eq_some_iff.mp h
  rw [dataChunk_end p rest hheader htag, ← List.append_assoc (sig ++ header), List.take_left' rfl]
  exact decodeContainer_eq_some_iff.mpr ⟨header, tag, extra, hheader, htag, hp, by simp⟩

/-- Settles O59: were the cut container to decode, the whole would decode to the same payload, and the cut one would hold
the data-chunk's checksum. -/
theorem truncatedContainerFails : Obligations.TruncatedContainerFails := by
  intro c p m h hm
  cases hcut : decodeContainer (c.take m) with
  | none => rfl
  | some q =>
    have hwhole := decodeContainer_append (c.drop m) hcut
    rw [List.take_append_drop, h] at hwhole
    obtain rfl := Option.some.inj hwhole
    have hend := dataChunk_end_le_length hcut
    have hfield : subseq (c.take m) 8 12 = subseq c 8 12 := by
      rw [← subseq_append_left (c.drop m) (by omega), List.take_append_drop]
    rw [hfield, List.length_take] at hend
    omega

theorem be32_injective : Function.Injective be32 := Function.LeftInverse.injective unbe32_be32

/-- A changed byte of the payload: its checksum is no longer the stored one. -/
theorem decodeDataChunk_set_payload {tag p : List Byte} (rest : List Byte) {i : Nat} {v : Byte} (htag : tag.length = 4)
    (hp : p.length < 2 ^ 32) (hi : i < p.length) (hv : (chunk tag p ++ rest)[8 + i]? ≠ some v) :
    decodeDataChunk ((chunk tag p ++ rest).set (8 + i) v) 0 = none := by
  have hstart : 8 + i = (be32 (BitVec.ofNat 32 p.length) ++ tag).length + i := by simp [htag]
  have hparts : chunk tag p ++ rest =
      be32 (BitVec.ofNat 32 p.length) ++ tag ++ p ++ (be32 (crc32 (tag ++ p)) ++ rest) := by simp [chunk]
  rw [hparts, hstart] at hv ⊢
  rw [getElem?_middle _ _ _ hi] at hv
  have hcrc : crc32 (tag ++ p.set i v) ≠ crc32 (tag ++ p) := by
    have hbyte : v ≠ (tag ++ p)[tag.length + i]'(by simpa using hi) := by simpa [eq_comm] using hv
    simpa [List.set_append_right] using crc32_set_ne _ hbyte
  rw [set_middle _ _ _ v hi, ← List.append_assoc, decodeDataChunk_fields rest (be32_length _) htag
    (by rw [List.length_set, unbe32_be32_length hp]) (be32_length _), if_neg (be32_injective.ne hcrc)]

/-- A changed byte of the stored checksum: it is no longer the payload's. -/
theorem decodeDataChunk_set_checksum {tag p : List Byte} (rest : List Byte) {i : Nat} {v : Byte} (htag : tag.length = 4)
    (hp : p.length < 2 ^ 32) (hi : i < 4) (hv : (chunk tag p ++ rest)[8 + p.length + i]? ≠ some v) :
    decodeDataChunk ((chunk tag p ++ rest).set (8 + p.length + i) v) 0 = none := by
  have hstart : 8 + p.length = (be32 (BitVec.ofNat 32 p.length) ++ tag ++ p).length := by simp [htag]; omega
  have hi : i < (be32 (crc32 (tag ++ p))).length := hi
  rw [chunk, hstart] at hv ⊢
  rw [getElem?_middle _ _ _ hi] at hv
  have hck : be32 (crc32 (tag ++ p)) ≠ (be32 (crc32 (tag ++ p))).set i v := fun heq => by
    have hbyte : (be32 (crc32 (tag ++ p)))[i]? = some v := by rw [heq, List.getElem?_set_self hi]
    exact hv ((List.getElem?_eq_getElem hi).symm.trans hbyte)
  rw [set_middle _ _ _ v hi, decodeDataChunk_fields rest (be32_length _) htag (unbe32_be32_length hp).symm
    (List.length_set ..), if_neg hck]

/-- Settles O60: a flipped bit changes a byte of the payload or of the checksum. -/
theorem flippedPayloadOrChecksumBitFails : Obligations.FlippedPayloadOrChecksumBitFails := by
  intro box p k bit h hdecode hbit hlow hhigh
  have hv : box[k]? ≠ some (box[k] ^^^ 1#8 <<< bit) := fun heq =>
    flip_bit_ne box[k] hbit (Option.some.inj (heq.symm.trans (List.getElem?_eq_getElem h)))
  generalize box[k] ^^^ 1#8 <<< bit = v at hv ⊢
  obtain ⟨header, tag, rest, hheader, htag, hp, rfl⟩ := decodeContainer_eq_some_iff.mp hdecode
  have hfront : (sig ++ header).length = 20 + (unbe32 (subseq header 0 4)).toNat := by
    rw [List.length_append, hheader, sig_length, ← Nat.add_assoc]
  rw [subseq_header_length_field _ hheader] at hlow hhigh
  obtain ⟨j, rfl⟩ := Nat.exists_eq_add_of_le (by omega : (sig ++ header).length ≤ k)
  rw [List.getElem?_append_right (Nat.le_add_right _ _), Nat.add_sub_cancel_left] at hv
  rw [List.set_append_right _ _ (Nat.le_add_right _ _), Nat.add_sub_cancel_left, decodeContainer_header _ hheader]
  rcases Nat.lt_or_ge j (8 + p.length) with hj | hj
  · obtain ⟨i, rfl⟩ := Nat.exists_eq_add_of_le (by omega : 8 ≤ j)
    exact decodeDataChunk_set_payload rest htag hp (by omega) hv
  · obtain ⟨i, rfl⟩ := Nat.exists_eq_add_of_le hj
    exact decodeDataChunk_set_checksum rest htag hp (by omega) hv

/-! ### ENCODE and DECODE -/

theorem encodeContainer_source_length (s : State) :
    (encodeContainer (s.inBytes s.src s.len)).length = 57 + s.len := by
  rw [encodeContainer_length, inBytes_length]

/-- Both ranges fit: the container of the source bytes is delivered. -/
theorem execEncode_delivers (hs : s.srcFits s.len) (hd : s.dstFits (57 + s.len)) :
    ∃ t : State, execEncode s = .next t ∧ Delivered s (encodeContainer (s.inBytes s.src s.len)) t :=
  ⟨_, execEncode_of_fits hs hd, afterOut_delivered (by rwa [encodeContainer_source_length])⟩

/-- Settles O38: the three outcomes of the two guards. -/
theorem encodeWritesTheContainer : Obligations.EncodeWritesTheContainer := by
  refine ⟨rfl, fun s hs hd => ?_, fun _ hs => guardSrc_of_not_fits _ hs,
    fun _ hs hd => (guardSrc_of_fits _ hs).trans (guardDst_of_not_fits _ hd)⟩
  obtain ⟨t, ht, hdel⟩ := execEncode_delivers hs hd
  exact ⟨t, ht, hdel, hdel.outLen.trans (encodeContainer_source_length s)⟩

/-- A pass whose payload fits: the payload is delivered. -/
theorem execDecode_delivers {p : List Byte} (hs : s.srcFits s.len)
    (hp : decodeContainer (s.inBytes s.src s.len) = some p) (hd : s.dstFits p.length) :
    ∃ t : State, execDecode s = .next t ∧ Delivered s p t :=
  ⟨_, by rw [execDecode_of_some hs hp, guardDst_of_fits _ hd, writeOut_of_fits hd], afterOut_delivered hd⟩

/-- The shortest container of a payload: an empty header-chunk, and nothing after the data-chunk. -/
theorem exists_shortest_container {p : List Byte} (hp : p.length < 2 ^ 32) :
    ∃ c : List Byte, c.length = p.length + 32 ∧ decodeContainer c = some p :=
  ⟨sig ++ chunk tagIHDR [] ++ chunk tagIDAT p ++ [], by simp; omega,
    anyTagsDecode tagIHDR [] tagIDAT p [] rfl rfl (by decide) hp⟩

/-- Settles O39: the source guard, then the decode's two outcomes, then on a pass the destination guard. -/
theorem decodeWritesThePayloadOrFails : Obligations.DecodeWritesThePayloadOrFails := by
  refine ⟨rfl, fun s p hs hp => ⟨?_, execDecode_delivers hs hp, fun hd => ?_⟩, fun _ => execDecode_of_none,
    fun _ hs => withSource_of_not_fits _ hs, fun _ => exists_shortest_container⟩
  · have hend := dataChunk_end_le_length hp
    rw [inBytes_length] at hend
    omega
  · exact (execDecode_of_some hs hp).trans (guardDst_of_not_fits _ hd)

/-- Settles O54: the copy reads back as the container, which decodes to the payload. -/
theorem encodeCopyDecodeReturnsThePayload : Obligations.EncodeCopyDecodeReturnsThePayload := by
  intro s t u hs hd hencode hlen hsrc hdst hcopy
  obtain ⟨t', ht', hdel⟩ := execEncode_delivers hs hd
  cases ht'.symm.trans hencode
  set p := s.inBytes s.src s.len
  have hp : p.length = s.len := inBytes_length s _ _
  have hread : u.inBytes u.src u.len = encodeContainer p := by
    rw [State.len, hlen, hdel.outLen]
    exact hdel.inBytes_copy fun k hk => hcopy k (by rwa [hdel.outLen])
  have hdecode : decodeContainer (u.inBytes u.src u.len) = some p := by
    rw [hread]
    exact decodeContainerInvertsEncodeContainer p (by rw [hp]; exact s.srcLen.isLt)
  obtain ⟨v, hv, hvdel⟩ := execDecode_delivers hsrc hdecode (by rwa [hp])
  refine ⟨v, hv, hvdel.pass, hvdel.err, BitVec.eq_of_toNat_eq (hvdel.outLen.trans hp), fun k hk => ?_⟩
  have hkp : k < p.length := by rwa [hp]
  exact (hvdel.outByte_add hkp).trans (getElem_inBytes hkp)

end Sys2Proof.Machine
end

section
/-! SUPPORT. The proofs of 60_exceptions.md: the words that are no command, the three ways a command ends and what each
writes, the order of the range checks, and the interrupt output. -/

namespace Sys2Proof.Machine

variable {s t : State} {i : Instr}

/-! ### A word that is no command -/

theorem opcode_mem_opcodeMap (i : Instr) :
    i.opcode ∈ [0x01#8, 0x02#8, 0x03#8, 0x04#8, 0x10#8, 0x11#8, 0x20#8, 0x30#8, 0x31#8] := by
  cases i <;> decide

/-- What ERR_ILLEGAL tells apart: a word that decodes has its reserved bits clear and an opcode of the map
(60_exceptions.md R254). -/
theorem fields_of_decode {w : Word} (h : decode w = .ok i) :
    w.extractLsb' 8 24 = 0#24 ∧
      w.extractLsb' 0 8 ∈ [0x01#8, 0x02#8, 0x03#8, 0x04#8, 0x10#8, 0x11#8, 0x20#8, 0x30#8, 0x31#8] := by
  obtain ⟨-, hreserved, hopcode, -, -⟩ := encoding_statement i
  rw [eq_encode_of_decode h, hopcode]
  exact ⟨eq_of_beq hreserved, opcode_mem_opcodeMap i⟩

theorem engineStep_of_no_command {w : Word} (hp : s.pend = some w) (hw : ∀ i, decode w ≠ .ok i) :
    engineStep s = .next (raiseError .illegal s) := by
  cases hd : decode w with
  | ok i => exact absurd hd (hw i)
  | error e => exact engineStep_illegal hp hd

/-- Settles O3: the engine's move on a word that cannot decode. -/
theorem illegalWordEndsInErrIllegal : Obligations.IllegalWordEndsInErrIllegal := by
  intro s w hm hp hw
  have hillegal (i : Instr) : decode w ≠ .ok i := fun hd => by
    obtain ⟨hreserved, hopcode⟩ := fields_of_decode hd
    exact hw.elim (absurd hreserved) (absurd hopcode)
  exact (step_of_engineMoves hm).trans
    (engineStep_of_no_command (s := { s with schedule := s.schedule.tail }) hp hillegal)

/-! ### No trap -/

theorem exec_goes (i : Instr) (s : State) : Goes (exec i s) := by
  rcases exec_inversion i s with ⟨_, h⟩ | ⟨_, _, _, h⟩ | ⟨_, -, -, h⟩ <;> exact ⟨_, h⟩

theorem engineStep_goes (s : State) : Goes (engineStep s) := by
  rcases engineStep_inversion s with ⟨-, h⟩ | ⟨_, i, -, -, h⟩ | ⟨_, _, -, -, h⟩
  · exact ⟨_, h⟩
  · exact h ▸ exec_goes i s
  · exact ⟨_, h⟩

theorem runEvent_goes (e : Event) (s : State) : Goes (runEvent e s) := by
  cases e with
  | host x => exact ⟨_, rfl⟩
  | completion => exact engineStep_goes s
  | hardReset => exact ⟨_, rfl⟩

/-- Settles O7: the engine's step and every event go on, for every command does. -/
theorem noStepFaultsOrIsRefused : Obligations.NoStepFaultsOrIsRefused := by
  intro s
  cases hs : s.schedule with
  | nil => exact step_idle hs ▸ engineStep_goes s
  | cons e rest => exact step_event hs ▸ runEvent_goes e _

/-! ### The three ways a command ends -/

/-- How a command ends (60_exceptions.md R258). A failure and an error start from `s` as the command found it: nothing
was written before. -/
inductive CommandEnds (i : Instr) (s : State) : Result → Prop
  /-- With PASS = 1, after the command's writes. -/
  | pass (n : Nat) (u : State) : CommandEnds i s (.next (complete true n u))
  /-- DECODE's failure. -/
  | failure (hi : i = .decode) : CommandEnds i s (.next (complete false 0 s))
  /-- In an error. -/
  | error (e : CmdError) : CommandEnds i s (.next (raiseError e s))

theorem guardSrc_ends {n : Nat} {k : Result} (hk : s.srcFits n → CommandEnds i s k) :
    CommandEnds i s (guardSrc s n k) := by
  by_cases h : s.srcFits n
  · rw [guardSrc_of_fits k h]; exact hk h
  · rw [guardSrc_of_not_fits k h]; exact .error .srcRange

theorem guardDst_ends {n : Nat} {k : Result} (hk : s.dstFits n → CommandEnds i s k) :
    CommandEnds i s (guardDst s n k) := by
  by_cases h : s.dstFits n
  · rw [guardDst_of_fits k h]; exact hk h
  · rw [guardDst_of_not_fits k h]; exact .error .dstRange

theorem loadIn_ends {n : Nat} {k : List Byte → Result} (hs : s.srcFits n)
    (hk : CommandEnds i s (k (s.inBytes s.src n))) : CommandEnds i s (loadIn s s.src n k) :=
  loadIn_of_fits k hs ▸ hk

theorem writeOut_ends {bytes : List Byte} (hd : s.dstFits bytes.length) : CommandEnds i s (writeOut s bytes) :=
  writeOut_of_fits hd ▸ .pass _ _

theorem exec_ends (i : Instr) (s : State) : CommandEnds i s (exec i s) := by
  cases i with
  | crcInit | crcByte => exact .pass 0 _
  | crcUpdate | crcCompute | unpack32 => exact guardSrc_ends fun hs => loadIn_ends hs (.pass 0 _)
  | pack32 => exact guardDst_ends (writeOut_ends (bytes := be32 s.data))
  | frameChunk =>
    exact guardSrc_ends fun hs => guardDst_ends fun hd =>
      loadIn_ends hs (writeOut_ends (by rwa [chunk_source_length]))
  | encode =>
    exact guardSrc_ends fun hs => guardDst_ends fun hd =>
      loadIn_ends hs (writeOut_ends (by rwa [encodeContainer_source_length]))
  | decode =>
    refine guardSrc_ends fun hs => loadIn_ends hs ?_
    cases decodeContainer (s.inBytes s.src s.len) with
    | none => exact .failure rfl
    | some p => exact guardDst_ends writeOut_ends

theorem CmdError.code_mem (e : CmdError) : e.code ∈ [1#4, 2#4, 3#4] := by
  cases e <;> decide

/-- Settles O42: each way to end, with what it leaves of the state the command found. -/
theorem commandEndsInOneOfThreeWays : Obligations.CommandEndsInOneOfThreeWays := by
  intro i s
  have hends := exec_ends i s
  generalize exec i s = r at hends ⊢
  cases hends with
  | pass n u => exact ⟨_, rfl, rfl, rfl, rfl, .inl ⟨rfl, rfl⟩⟩
  | failure hi => exact ⟨_, rfl, rfl, rfl, rfl, .inr (.inl ⟨rfl, rfl, hi, rfl, rfl, rfl, fun _ => rfl⟩)⟩
  | error e => exact ⟨_, rfl, rfl, rfl, rfl, .inr (.inr ⟨rfl, e.code_mem, rfl, rfl, rfl, fun _ => rfl⟩)⟩

/-! ### The range errors and their order -/

theorem exec_of_not_srcFits (hi : i ∈ [Instr.crcUpdate, .crcCompute, .frameChunk, .encode, .decode])
    (hs : ¬ s.srcFits s.len) : exec i s = .next (raiseError .srcRange s) := by
  cases i with
  | crcUpdate | crcCompute | frameChunk | encode | decode => exact guardSrc_of_not_fits _ hs
  | crcInit | crcByte | pack32 | unpack32 => exact absurd hi (by decide)

/-- Settles O40: the source guard of each of the six commands, before anything is read. -/
theorem sourceRangeErrors : Obligations.SourceRangeErrors :=
  ⟨fun _ _ hi h => exec_of_not_srcFits hi (Nat.not_le.mpr h), fun _ h => guardSrc_of_not_fits _ (Nat.not_le.mpr h)⟩

/-- Where the output leaves OUT, the source guard still comes first (60_exceptions.md R257). -/
theorem guardSrc_guardDst_endsInError {n m : Nat} (k : Result) (hd : ¬ s.dstFits m) :
    EndsInError s (if s.src + n > s.cfg.inSize.toNat then 2#4 else 3#4) (guardSrc s n (guardDst s m k)) := by
  split
  next hs => exact guardSrc_of_not_fits _ (Nat.not_le.mpr hs)
  next hs => exact (guardSrc_of_fits _ (Nat.not_lt.mp hs)).trans (guardDst_of_not_fits _ hd)

/-- Settles O41: the guards of each command in their order; DECODE has its destination guard on a pass only, and a word
that is no command reaches no guard. -/
theorem destinationRangeErrorsAndPriority : Obligations.DestinationRangeErrorsAndPriority := by
  refine ⟨fun s hd => guardDst_of_not_fits _ (Nat.not_le.mpr hd), fun s hd => ?_, fun s hd => ?_, fun s hs => ?_,
    fun s p hs hp hd => ?_, fun s hs hp => ⟨_, execDecode_of_none hs hp, rfl, rfl⟩,
    fun s w hp hw => engineStep_of_no_command hp hw⟩
  · exact guardSrc_guardDst_endsInError _ (Nat.not_le.mpr (by rwa [← Nat.add_assoc]))
  · exact guardSrc_guardDst_endsInError _ (Nat.not_le.mpr (by rwa [← Nat.add_assoc]))
  · exact exec_of_not_srcFits (by decide) (Nat.not_le.mpr hs)
  · exact (execDecode_of_some hs hp).trans (guardDst_of_not_fits _ (Nat.not_le.mpr hd))

/-! ### The interrupt output -/

theorem exec_done (h : exec i s = .next t) : t.done = true := by
  have hends := exec_ends i s
  rw [h] at hends
  cases hends <;> rfl

/-- `irq` where a completion set DONE and kept CTRL_IE (60_exceptions.md R261). -/
theorem irq_of_completion (hdone : t.done = true) (hie : t.ctrlIE = s.ctrlIE) : t.irq = s.ctrlIE := by
  rw [State.irq, hdone, hie, Bool.and_true]

theorem irq_of_done_clear (h : s.done = false) : s.irq = false := by
  rw [State.irq, h, Bool.and_false]

theorem irq_of_ie_clear (h : s.ctrlIE = false) : s.irq = false := by
  rw [State.irq, h, Bool.false_and]

theorem engineStep_irq (hp : s.pend ≠ none) (h : engineStep s = .next t) : t.irq = s.ctrlIE := by
  rcases engineStep_completes h with ⟨hnone, -⟩ | ⟨-, -, hdone, -⟩
  · exact absurd hnone hp
  · exact irq_of_completion hdone (engineStep_commandFrame h).ctrlIE

/-- Settles O30: a completion sets DONE and keeps CTRL_IE; each of the falls clears one of the two. -/
theorem interruptRisesAndFalls : Obligations.InterruptRisesAndFalls := by
  refine ⟨fun i s t h => irq_of_completion (exec_done h) (exec_commandFrame h).ctrlIE, fun s t w hm hp h => ?_,
    fun s w hw => ?_, fun s w hw => ⟨?_, ?_⟩, fun s w hb => ?_, fun s => rfl⟩
  · exact engineStep_irq (s := { s with schedule := s.schedule.tail }) (by simp [hp])
      ((step_of_engineMoves hm).symm.trans h)
  · obtain ⟨-, hctrl⟩ := statusAndCtrlWrites s w
    exact congrArg State.irq (hctrl hw)
  · obtain ⟨hstatus, -⟩ := statusAndCtrlWrites s w
    rw [hstatus]
    exact irq_of_done_clear (if_pos hw)
  · have hctrl := hostAccess_writeReg .ctrl w s
    rw [writeReg, writeCtrl_of_reset hw] at hctrl
    exact (congrArg State.irq hctrl).trans (irq_of_ie_clear (softReset_ctrlIE s))
  · rw [hostAccess_issue hb]
    exact irq_of_done_clear rfl

end Sys2Proof.Machine
end

section
/-! SUPPORT. The proofs of 70_reset_and_hazards.md: the end of every pending command, the engine's move on a word that
decodes, the two resets and the state after reset, and the host's writes while a command is pending. -/

namespace Sys2Proof.Machine

variable {s t : State} {i : Instr}

/-! ### Every pending command completes -/

/-- Whichever event a step takes, it takes the head off the schedule and adds nothing. -/
theorem step_schedule (h : step s = .next t) : t.schedule = s.schedule.tail := by
  rcases step_inversion h with ⟨-, he⟩ | ⟨x, rest, hs, rfl⟩ | ⟨rest, hs, rfl⟩
  · exact (engineStep_commandFrame he).schedule
  · rw [hostAccess_schedule, hs, List.tail_cons]
  · rw [hardReset_schedule, hs, List.tail_cons]

theorem engineStep_pend (h : engineStep s = .next t) : t.pend = none := by
  rcases engineStep_completes h with ⟨hp, rfl⟩ | ⟨-, -, -, hp⟩ <;> exact hp

/-- The step in which the engine moves of its own accord comes once the schedule is used up
(70_reset_and_hazards.md R295). -/
theorem run_past_schedule {es : List Event} (hs : s.schedule = es) :
    ∃ t : State, Host.Core.run Sys2Proof.core (es.length + 1) s = .next t ∧
      t.pend = none ∧ t.schedule = [] ∧ (s.Inv → t.Inv) := by
  induction es generalizing s with
  | nil =>
    obtain ⟨t, ht⟩ := noStepFaultsOrIsRefused s
    refine ⟨t, run_succ ht, engineStep_pend ((step_idle hs).symm.trans ht), ?_,
      fun hinv => everyStepKeepsTheInvariant s t hinv ht⟩
    rw [step_schedule ht, hs, List.tail_nil]
  | cons e rest ih =>
    obtain ⟨u, hu⟩ := noStepFaultsOrIsRefused s
    have hrest : u.schedule = rest := by rw [step_schedule hu, hs, List.tail_cons]
    obtain ⟨t, hrun, hpend, hend, hinv⟩ := ih hrest
    exact ⟨t, (run_succ hu).trans hrun, hpend, hend,
      fun h => hinv (everyStepKeepsTheInvariant s u h hu)⟩

/-- Settles O6: by induction on the schedule; a good state with nothing pending is idle. -/
theorem pendingCommandCompletes : Obligations.PendingCommandCompletes := by
  intro s
  obtain ⟨t, hrun, hpend, hend, hinv⟩ := run_past_schedule (s := s) rfl
  refine ⟨t, hrun, hpend, hend, fun h => ?_⟩
  rw [(hinv h).busyIffPending, hpend, Option.isSome_none]

/-! ### A word that decodes -/

/-- Settles O4: the engine's move finds the pending word beside the shortened schedule. -/
theorem stepRunsTheDecodedCommand : Obligations.StepRunsTheDecodedCommand := by
  intro s w i hm hp hd _
  exact (step_of_engineMoves hm).trans (engineStep_command (s := { s with schedule := s.schedule.tail }) hp hd)

theorem tableWord_toNat (w : Word) : tableWord 32 w.toNat = some w := by
  simp [tableWord, Nat.mod_eq_of_lt w.isLt, w.isLt]

theorem decodeTableWord_toNat {w : Word} (h : decode w = .ok i) : decodeTableWord 32 w.toNat = some i := by
  simp [decodeTableWord, tableWord_toNat, h]

theorem withFetchWord_toNat (w : Word) (s : State) : s.withFetchWord 32 w.toNat = placeCommand w s := by
  rw [State.withFetchWord, tableWord_toNat]

/-- The completion that is placed with a command is the next event, and its own schedule is the one from before. -/
theorem step_placeCommand (w : Word) (s : State) : step (placeCommand w s) = engineStep (issue w s) :=
  step_scheduled (issue w s) .completion s.schedule

/-- Settles O5: the table's number is the word's own, and the placed completion finds it issued. -/
theorem fetchedWordRunsNext : Obligations.FetchedWordRunsNext := by
  intro s w i hd
  refine ⟨decodeTableWord_toNat hd, ?_⟩
  rw [withFetchWord_toNat, step_placeCommand, engineStep_command (issue_pend w s) hd]

/-! ### The state after reset -/

theorem reset_inv {c : Config} (hc : c.wf = true) : State.Inv { State.reset with cfg := c } where
  cfgWf := hc
  busyIffPending := rfl
  pendingIsCmd := nofun
  busyQuiet := nofun
  errorFails := fun _ => rfl
  errorCode := Nat.zero_le _
  inWf := .nil
  inWithin := nofun
  outWf := .nil
  outWithin := nofun
  outLenFits := Nat.zero_le _
  inDrawn := Nat.one_pos
  outDrawn := Nat.one_pos
  abortsDrawn := nofun

/-- Settles O8: both buffers are empty and no register is out of its range; the reference configuration is one of
those allowed. -/
theorem resetMeetsTheInvariant : Obligations.ResetMeetsTheInvariant :=
  ⟨reset_inv (c := Config.reference) rfl, fun _ => reset_inv⟩

/-- CRC_RESULT is the complement of CRC_ACC, and CRC_ACC resets to all ones (10_state.md R51). -/
theorem crcResult_of_allOnes (h : s.crcAcc = 0xFFFFFFFF#32) : s.crcResult = 0#32 := by
  rw [State.crcResult, h]; decide

/-- Settles O28: each value as the reset state lists it; STATUS, CRC_RESULT and `irq` from the values they are read
from. -/
theorem resetStateHasTheStatedValues : Obligations.ResetStateHasTheStatedValues :=
  ⟨rfl, by decide, rfl, rfl, rfl, rfl, rfl, rfl, rfl, rfl, crcResult_of_allOnes rfl, rfl, irq_of_ie_clear rfl, rfl,
    rfl⟩

/-! ### The two resets -/

/-- After a hardware reset no byte of IN is stored, so each is a free value of the reset's draw
(70_reset_and_hazards.md R280). -/
theorem hardReset_inByte (s : State) (a : Nat) : (hardReset s).inByte a = Config.freeIn s.draws a := rfl

theorem hardReset_outByte (s : State) (a : Nat) : (hardReset s).outByte a = Config.freeOut s.draws a := rfl

/-- Settles O27: the step is the reset, field by field, at the state with the reset taken off the schedule. -/
theorem hardwareResetValues : Obligations.HardwareResetValues := by
  intro s rest hs
  refine ⟨hardReset { s with schedule := rest }, step_event hs, ?_⟩
  exact ⟨rfl, rfl, rfl, rfl, rfl, rfl, rfl, rfl, rfl, rfl, rfl, rfl, rfl, rfl, crcResult_of_allOnes rfl, rfl,
    irq_of_ie_clear rfl, hardReset_inByte _, hardReset_outByte _, Nat.lt_succ_self _, rfl, rfl, rfl, rfl⟩

theorem hostAccess_softReset {w : Word} (hw : w.getLsbD 1 = true) (s : State) :
    hostAccess ⟨.reg, 0x04, .write32 w⟩ s = answer .written (softReset s) :=
  (hostAccess_writeReg .ctrl w s).trans (congrArg _ (writeCtrl_of_reset hw s))

/-- An abort uses up one draw. -/
theorem softReset_draws_of_busy (hb : s.busy = true) : (softReset s).draws = s.draws + 1 := by
  rw [softReset_draws, abortOut_of_busy hb]

/-- Settles O29: the registers as the soft reset sets them, IN as it stood, and OUT by whether a command was
pending. -/
theorem softResetKeepsAndClears : Obligations.SoftResetKeepsAndClears := by
  intro s w hw
  refine ⟨softReset s, hostAccess_softReset hw s, rfl, rfl, rfl, rfl, rfl, rfl, rfl, rfl, rfl, rfl, rfl, rfl, rfl, rfl,
    rfl, softReset_cfg s, softReset_schedule s, softReset_inByte s, softReset_outByte_of_idle,
    fun hb => ⟨fun a ha => ?_, fun a ha => ?_, ?_⟩⟩
  · rw [softReset_outByte_of_busy hb, if_pos ha]
  · rw [softReset_outByte_of_busy hb, if_neg (Nat.not_lt.mpr ha)]
  · rw [softReset_draws_of_busy hb]; exact Nat.lt_succ_self _

/-! ### Host writes while a command is pending -/

/-- Settles O18: the writes that BUSY = 1 drops, those of CTRL and STATUS, which do not look at it, and those that are
ignored at any time. -/
theorem writesWhileBusyAreDropped : Obligations.WritesWhileBusyAreDropped := by
  intro s hb
  obtain ⟨ignoredReg, ignoredOut⟩ := readOnlyWritesAreIgnored s
  exact ⟨fun off ho w => hostAccess_droppedReg hb w ho, fun a b => hostAccess_droppedIn hb b,
    fun w => ⟨hostAccess_writeReg .ctrl w s, hostAccess_writeReg .status w s⟩, ignoredReg, ignoredOut⟩

end Sys2Proof.Machine
end
